-- ==== Sys2Proof/Word.lean ====
section
/-! DEFINITION. The word types of PCORE and their plainest arithmetic (00_scope.md R9, R12, R13). -/

namespace Sys2Proof

/-- A 32-bit register value (R9: register width on the bus). -/
abbrev Word := BitVec 32

/-- A 64-bit value held in a LO and a HI register (10_state.md R39). -/
abbrev DWord := BitVec 64

/-- One byte of a byte string. -/
abbrev Byte := BitVec 8

end Sys2Proof
end

