-- ==== Sys2Proof/Syntax.lean ====
section
/-! DEFINITION. The commands of PCORE and the one format of a command word (30_encoding.md R60 to R63). -/

namespace Sys2Proof

/-- One constructor per row of the opcode map (R63). A command names no register: its operands are
implicit (R62), but for the character byte of B32CH. -/
inductive Instr where
  /-- NOP (R79) -/
  | nop
  /-- B32RST: reset the base-32 decoder and clear the key (R93) -/
  | b32rst
  /-- B32CH c: feed one character (R94) -/
  | b32ch (c : Byte)
  /-- B32FIN: end of text (R98) -/
  | b32fin
  /-- CTRGEN: counter from time (R116) -/
  | ctrgen
  /-- HMAC: digest of the counter (R117) -/
  | hmac
  /-- TRUNC: dynamic truncation of the digest held (R119) -/
  | trunc
  /-- OTPGEN: CTRGEN, HMAC and TRUNC in one command (R120) -/
  | otpgen
  /-- DIV: 64-bit unsigned divide (R126) -/
  | div
  /-- PAYENC: the arithmetic of encode (R128) -/
  | payenc
  /-- PAYREC: recover the identifier (R130) -/
  | payrec
  /-- PAYCHK: validate (R132) -/
  | paychk
deriving DecidableEq, Repr

/-- The assembler mnemonic (R63, R66). -/
def Instr.mnemonic : Instr → String
  | .nop => "NOP"
  | .b32rst => "B32RST"
  | .b32ch _ => "B32CH"
  | .b32fin => "B32FIN"
  | .ctrgen => "CTRGEN"
  | .hmac => "HMAC"
  | .trunc => "TRUNC"
  | .otpgen => "OTPGEN"
  | .div => "DIV"
  | .payenc => "PAYENC"
  | .payrec => "PAYREC"
  | .paychk => "PAYCHK"

/-- The fields of CMD32 (R60): OP is [7:0], ARG8 [15:8] and RSV [31:16]. -/
structure Cmd32 where
  op : BitVec 8
  arg8 : Byte
  rsv : BitVec 16
deriving DecidableEq, Repr

end Sys2Proof
end

