-- ==== Sys2Proof/WellFormed.lean ====
section
/-! DEFINITION. Which command words are legal (30_encoding.md R64) and which commands are well formed. -/

namespace Sys2Proof

/-- The opcodes R63 assigns. -/
def assignedOps : List (BitVec 8) :=
  [0x00, 0x10, 0x11, 0x12] ++ [0x20, 0x21, 0x22, 0x23] ++ [0x30, 0x31, 0x32, 0x33]

/-- R64, first conjunct: the reserved field is 0. -/
def Cmd32.rsvClear (f : Cmd32) : Bool := f.rsv == 0

/-- R64, second conjunct: the opcode is assigned. -/
def Cmd32.opAssigned (f : Cmd32) : Bool := assignedOps.contains f.op

/-- R64, third conjunct: only B32CH has an argument. -/
def Cmd32.argAllowed (f : Cmd32) : Bool := f.op == 0x11 || f.arg8 == 0

/-- `legal(w)` of R64, on the fields of the word. -/
def Cmd32.legal (f : Cmd32) : Bool := f.rsvClear && f.opAssigned && f.argAllowed

/-- The operands of a command are in range. B32CH takes any byte (R62: 0 to 255) and its type holds
exactly a byte; the other commands have no operand. So every term of `Instr` is well formed, and
what can be ill formed is a command WORD: see `Cmd32.legal`. -/
def Instr.wellFormed : Instr → Bool
  | .nop => true
  | .b32rst => true
  | .b32ch c => decide (c.toNat < 256)
  | .b32fin => true
  | .ctrgen => true
  | .hmac => true
  | .trunc => true
  | .otpgen => true
  | .div => true
  | .payenc => true
  | .payrec => true
  | .paychk => true

end Sys2Proof
end

