-- ==== Sys2Proof/Decode.lean ====
section
/-! DEFINITION. Decoding a command word and encoding a command (30_encoding.md R60 to R65). -/

namespace Sys2Proof

/-- The fields of a command word (R60). -/
def cmdFields (w : Word) : Cmd32 :=
  { op := w.extractLsb' 0 8, arg8 := w.extractLsb' 8 8, rsv := w.extractLsb' 16 16 }

/-- The word with these fields (R60). -/
def cmdWord (f : Cmd32) : Word := f.rsv ++ f.arg8 ++ f.op

/-- Why a word is no command (R65). Each is answered by E_ILLEGAL when the word completes. -/
inductive Illegal where
  /-- RSV is nonzero -/
  | reservedBits
  /-- OP is not in the opcode map -/
  | unassignedOpcode
  /-- ARG8 is nonzero outside B32CH -/
  | strayArgument
deriving DecidableEq, Repr

/-- The opcode of a command (R63). -/
def opcode : Instr → BitVec 8
  | .nop => 0x00
  | .b32rst => 0x10
  | .b32ch _ => 0x11
  | .b32fin => 0x12
  | .ctrgen => 0x20
  | .hmac => 0x21
  | .trunc => 0x22
  | .otpgen => 0x23
  | .div => 0x30
  | .payenc => 0x31
  | .payrec => 0x32
  | .paychk => 0x33

/-- Every command of the opcode map (R63), with the character `c` for B32CH. -/
def commands (c : Byte) : List Instr :=
  [.nop, .b32rst, .b32ch c, .b32fin] ++ [.ctrgen, .hmac, .trunc, .otpgen] ++ [.div, .payenc, .payrec, .paychk]

/-- The command of an opcode (R63), `c` being ARG8; none where the opcode is not assigned. -/
def commandOf (op : BitVec 8) (c : Byte) : Option Instr := (commands c).find? fun i => opcode i == op

/-- The decoder: total on every 32-bit word, and a word that is not legal (R64) is rejected by name (R65). -/
def decode (w : Word) : Except Illegal Instr :=
  let f := cmdFields w
  if f.rsv ≠ 0 then .error .reservedBits
  else
    match commandOf f.op f.arg8 with
    | none => .error .unassignedOpcode
    | some i => if f.op ≠ 0x11 ∧ f.arg8 ≠ 0 then .error .strayArgument else .ok i

/-- ARG8 of a command: the character for B32CH, 0 for the others (R60). -/
def argument : Instr → Byte
  | .nop => 0
  | .b32rst => 0
  | .b32ch c => c
  | .b32fin => 0
  | .ctrgen => 0
  | .hmac => 0
  | .trunc => 0
  | .otpgen => 0
  | .div => 0
  | .payenc => 0
  | .payrec => 0
  | .paychk => 0

/-- `word(m)` of R66: the word the host writes to CMD for a command. -/
def encode (i : Instr) : Word := cmdWord { op := opcode i, arg8 := argument i, rsv := 0 }

/-- A row of the opcode table (R64): the word matches when `w & mask = pattern`. -/
structure OpcodeRow where
  mnemonic : String
  mask : Word
  pattern : Word
deriving DecidableEq, Repr

/-- The mask and match words of R64. -/
def opcodeRows : List OpcodeRow :=
  [⟨"NOP", 0xFFFFFFFF, 0x00000000⟩, ⟨"B32RST", 0xFFFFFFFF, 0x00000010⟩,
   ⟨"B32CH", 0xFFFF00FF, 0x00000011⟩, ⟨"B32FIN", 0xFFFFFFFF, 0x00000012⟩] ++
  [⟨"CTRGEN", 0xFFFFFFFF, 0x00000020⟩, ⟨"HMAC", 0xFFFFFFFF, 0x00000021⟩,
   ⟨"TRUNC", 0xFFFFFFFF, 0x00000022⟩, ⟨"OTPGEN", 0xFFFFFFFF, 0x00000023⟩] ++
  [⟨"DIV", 0xFFFFFFFF, 0x00000030⟩, ⟨"PAYENC", 0xFFFFFFFF, 0x00000031⟩,
   ⟨"PAYREC", 0xFFFFFFFF, 0x00000032⟩, ⟨"PAYCHK", 0xFFFFFFFF, 0x00000033⟩]

/-- Whether a word matches a row (R64). -/
def OpcodeRow.hits (row : OpcodeRow) (w : Word) : Bool := w &&& row.mask == row.pattern

/-- The instruction the decoder reads from an instruction's `nbits` bits `w`. A command is always one
32-bit word given in one bus write (R61), so the bits are the word itself. -/
def decodeTableWord (nbits w : Nat) : Option Instr :=
  if nbits ≤ 32 then
    match decode (BitVec.ofNat 32 (w % 2 ^ nbits)) with
    | .ok i => some i
    | .error _ => none
  else none

end Sys2Proof
end

