-- ==== Sys2Proof/Config.lean ====
section
/-! DEFINITION. What PCORE fixes and what its platform fixes (00_scope.md R3, R9, R10). -/

namespace Sys2Proof.Config

/-- P_UID_INIT, the reset value of UID, which the spec leaves to the platform (R10, R42).
It has no body: nothing in Lean can prove a value of it, so every claim holds for each value. -/
opaque uidInit : DWord

/-- P_BASE, the bus address of register offset 0 (R10). No rule reads it, and no offset depends on it. -/
opaque pBase : Nat

/-- The bus address of a register offset (10_state.md R18: offsets are from P_BASE). -/
def busAddress (off : Nat) : Nat := pBase + off

/-- ID (R3, R20): "PCOR" in big-endian ASCII. -/
def idValue : Word := 0x50434F52

/-- VERSION (R3, R20): major 1, minor 0. -/
def versionValue : Word := 0x00010000

/-- STEP (R28): seconds in one time step, hardwired. -/
def step : Nat := 30

/-- DIGITS (R28): OTP digit count D, hardwired. -/
def digits : Nat := 4

/-- 10^D, the modulus of dynamic truncation (R9, R28). -/
def otpModulus : Nat := 10 ^ digits

/-- FACTOR's reset value (R29). -/
def factorReset : Word := 5

/-- KEY_MAX: bytes in the key buffer, also the HMAC block length (R9). -/
def keyMax : Nat := 64

/-- XMAX, YMAX and ZMAX: the decimal widths of the paycode fields (43_paycode_divider.md R127). -/
def xMax : Nat := 9999
@[inherit_doc xMax] def yMax : Nat := 99999999
@[inherit_doc xMax] def zMax : Nat := 9999

/-- Bytes in the register window (20_memory.md R43). -/
def windowBytes : Nat := 4096

end Sys2Proof.Config
end

