-- ==== Sys2Proof/Machine/State.lean ====
section
/-! DEFINITION. The state of PCORE as plain data: the registers of 10_state.md R18 to R39, the hidden
state of R40, and the two fields of the model's own host interface. -/

namespace Sys2Proof.Machine

/-- The error codes of 60_exceptions.md R141. Codes 8 to 15 are never produced, so they are no value
of the type. -/
inductive ErrCode where
  /-- 0 NONE -/
  | noError
  /-- 1 E_ILLEGAL -/
  | illegal
  /-- 2 E_DECODE -/
  | decode
  /-- 3 E_KEYOVF -/
  | keyovf
  /-- 4 E_KEYLEN -/
  | keylen
  /-- 5 E_KEYSTATE -/
  | keystate
  /-- 6 E_DIV0 -/
  | div0
  /-- 7 E_RANGE -/
  | range
deriving DecidableEq, Repr

/-- B32STAT.STATE (10_state.md R26, 41_base32.md R90). The values 6 and 7 never occur. -/
inductive B32State where
  /-- 0 IDLE -/
  | idle
  /-- 1 DATA -/
  | data
  /-- 2 PAD -/
  | pad
  /-- 3 END -/
  | ended
  /-- 4 DONE -/
  | done
  /-- 5 ERR -/
  | err
deriving DecidableEq, Repr

/-- The fields of B32STAT, each at the width R26 gives it. -/
structure B32Stat where
  state : B32State
  qpos : BitVec 3
  nbits : BitVec 4
  dcnt : BitVec 4
  acc : BitVec 7
deriving DecidableEq, Repr

/-- The fields of CHKINFO (10_state.md R36). -/
structure ChkInfo where
  uidok : Bool
  otpok : Bool
  neg : Bool
deriving DecidableEq, Repr

/-- Five 32-bit words: DIGEST0 to DIGEST4 (10_state.md R33), and the chaining value H0 to H4 and the
working variables a to e of SHA-1 (42_otp_digest.md R111). -/
structure Digest where
  w0 : Word
  w1 : Word
  w2 : Word
  w3 : Word
  w4 : Word
deriving DecidableEq, Repr

/-- One host bus access (20_memory.md R44): the byte offset and the size in bytes, as the host gives them. -/
inductive HostAccess where
  /-- MemRead(off, size) -/
  | read (off size : Nat)
  /-- MemWrite(off, size, v) -/
  | write (off size : Nat) (v : Word)
deriving DecidableEq, Repr

/-- One turn in the single total order of 20_memory.md R56. -/
inductive Turn where
  /-- the host's next access, one atomic transaction (R44) -/
  | host (access : HostAccess)
  /-- the core's `complete`, where the schedule places it (40_command.md R78) -/
  | core
  /-- the hardware reset input (70_reset_and_hazards.md R160) -/
  | rst
deriving DecidableEq, Repr

/-- The state of PCORE. A 64-bit value is stored once; its LO and HI registers are views of it (R39). -/
structure State where
  /-- CTRL.IE (R21) -/
  ie : Bool
  /-- STATUS.DONE (R22) -/
  done : Bool
  /-- STATUS.VALID (R22) -/
  valid : Bool
  /-- STATUS.WIGN (R22, R149) -/
  wign : Bool
  /-- STATUS.ERRCODE (R22, R141) -/
  errcode : ErrCode
  /-- ERRINFO (R24, R142) -/
  errinfo : Word
  /-- KEYLEN[6:0] (R25) -/
  keylen : BitVec 7
  /-- B32STAT (R26) -/
  b32stat : B32Stat
  /-- B32CNT (R27) -/
  b32cnt : Word
  /-- FACTOR (R29) -/
  factor : Word
  /-- UID (R30) -/
  uid : DWord
  /-- TIME (R31) -/
  time : DWord
  /-- CTR (R32) -/
  ctr : DWord
  /-- DIGEST0 to DIGEST4 (R33) -/
  digest : Digest
  /-- OFFSET[3:0] (R34) -/
  offset : BitVec 4
  /-- BINCODE[30:0] (R34) -/
  bincode : BitVec 31
  /-- OTP[13:0] (R34) -/
  otp : BitVec 14
  /-- X (R35) -/
  x : Word
  /-- Y (R35) -/
  y : Word
  /-- Z (R35) -/
  z : Word
  /-- ORIGUID (R36) -/
  origuid : DWord
  /-- CHKINFO (R36) -/
  chkinfo : ChkInfo
  /-- A, the dividend (R37) -/
  a : DWord
  /-- B, the divisor (R37) -/
  b : DWord
  /-- Q, the quotient (R37) -/
  q : DWord
  /-- R, the remainder (R37) -/
  r : DWord
  /-- KEY[0] to KEY[63] (R38) -/
  key : Vector Byte 64
  /-- INFLIGHT, shown as STATUS.BUSY (R40) -/
  inflight : Bool
  /-- CUR, the latched command word; none right after reset (R40, R161) -/
  cur : Option Word
  /-- MODEL'S OWN: what happens next, the host's accesses, the core's turns and rst in one order
  (R56, R78). DESIGN CHOICE, log entry 1. -/
  schedule : List Turn
  /-- MODEL'S OWN: the word the bus returned to the host's latest read (R44). DESIGN CHOICE, log entry 2. -/
  rdata : Option Word
deriving DecidableEq, Repr

/-- The ways a step stops. -/
inductive Fault where
  /-- Raised by a host access of a wrong size, at a misaligned offset or at an unmapped offset: the
  host-side fault `BusError(off, size)` of 20_memory.md R51. The spec itself ends the run there. Safe. -/
  | busError (off size : Nat)
  /-- Raised by the core's turn when INFLIGHT = 1 and CUR is none, which no run reaches: issue sets
  both together (40_command.md R73). Safe. DESIGN CHOICE, log entry 7. -/
  | noLatchedCommand
deriving DecidableEq, Repr

/-- The ways the model leaves an instruction without a meaning. -/
inductive Refusal where
  /-- Raised by exec for a command with no meaning in the model; every command has one, so nothing
  raises it. Safe. -/
  | notModelled (mnemonic : String)
deriving DecidableEq, Repr

/-- The outcome of a step of this machine. -/
abbrev Result := Host.Outcome State Fault Refusal

/-- The reset state (10_state.md R18, R42, 70_reset_and_hazards.md R161). UID is P_UID_INIT. The
model's own fields are empty: no turn is scheduled and nothing has been read. -/
def State.reset : State where
  ie := false
  done := false
  valid := false
  wign := false
  errcode := .noError
  errinfo := 0
  keylen := 0
  b32stat := { state := .idle, qpos := 0, nbits := 0, dcnt := 0, acc := 0 }
  b32cnt := 0
  factor := Config.factorReset
  uid := Config.uidInit
  time := 0
  ctr := 0
  digest := { w0 := 0, w1 := 0, w2 := 0, w3 := 0, w4 := 0 }
  offset := 0
  bincode := 0
  otp := 0
  x := 0
  y := 0
  z := 0
  origuid := 0
  chkinfo := { uidok := false, otpok := false, neg := false }
  a := 0
  b := 0
  q := 0
  r := 0
  key := Vector.replicate 64 0
  inflight := false
  cur := none
  schedule := []
  rdata := none

end Sys2Proof.Machine
end

