-- ==== Sys2Proof/Machine/Flags.lean ====
section
/-! DEFINITION. The status words of PCORE as the bus sees them, and the interrupt output
(10_state.md R21, R22, R26, R36, R41). Reserved bits read 0 (R19). -/

namespace Sys2Proof.Machine

/-- The number of an error code (60_exceptions.md R141). -/
def ErrCode.toBits : ErrCode → BitVec 4
  | .noError => 0
  | .illegal => 1
  | .decode => 2
  | .keyovf => 3
  | .keylen => 4
  | .keystate => 5
  | .div0 => 6
  | .range => 7

/-- The number of a decoder state (R26). -/
def B32State.toBits : B32State → BitVec 3
  | .idle => 0
  | .data => 1
  | .pad => 2
  | .ended => 3
  | .done => 4
  | .err => 5

/-- STATUS.ERR equals `ERRCODE != 0` at all times (R22). -/
def State.errFlag (s : State) : Bool := s.errcode != .noError

/-- STATUS.BUSY shows INFLIGHT (R22, R40). -/
def State.busy (s : State) : Bool := s.inflight

/-- One bit of a register, as a field of width 1. -/
def flagBit (b : Bool) : BitVec 1 := BitVec.ofBool b

/-- The STATUS register (R22). -/
def statusWord (s : State) : Word :=
  (0 : BitVec 20) ++ s.errcode.toBits ++ (0 : BitVec 3) ++ flagBit s.wign ++ flagBit s.valid ++
    flagBit s.errFlag ++ flagBit s.done ++ flagBit s.busy

/-- The CTRL register: IE in bit 0; SRST reads 0 (R21). -/
def ctrlWord (s : State) : Word := (0 : BitVec 31) ++ flagBit s.ie

/-- The B32STAT register (R26). -/
def b32statWord (b : B32Stat) : Word :=
  (0 : BitVec 9) ++ b.acc ++ b.dcnt ++ b.nbits ++ (0 : BitVec 1) ++ b.qpos ++ (0 : BitVec 1) ++
    b.state.toBits

/-- The CHKINFO register (R36). -/
def chkinfoWord (c : ChkInfo) : Word :=
  (0 : BitVec 29) ++ flagBit c.neg ++ flagBit c.otpok ++ flagBit c.uidok

/-- The interrupt output: `irq = STATUS.DONE & CTRL.IE`, level and active high (R41, 60_exceptions.md R148). -/
def irq (s : State) : Bool := s.done && s.ie

end Sys2Proof.Machine
end

