-- ==== Sys2Proof/Machine/Operands.lean ====
section
/-! DEFINITION. The forms in which commands and the bus see stored values: the halves of a 64-bit
value (10_state.md R39), big-endian byte packing (20_memory.md R45 to R47), the key block
(42_otp_digest.md R113) and the character mapper (41_base32.md R91). -/

namespace Sys2Proof.Machine

/-! ### Halves of a 64-bit value (R39) -/

/-- The LO register: bits [31:0]. -/
def lo (v : DWord) : Word := v.extractLsb' 0 32

/-- The HI register: bits [63:32]. -/
def hi (v : DWord) : Word := v.extractLsb' 32 32

/-- `v` with its LO register replaced. -/
def setLo (v : DWord) (w : Word) : DWord := hi v ++ w

/-- `v` with its HI register replaced. -/
def setHi (v : DWord) (w : Word) : DWord := w ++ lo v

/-! ### Byte strings in words (R47: the lowest-indexed byte in [31:24]) -/

/-- Byte `i` (0 to 3) of a word that packs a byte string: bits [31-8i : 24-8i]. -/
def wordByte (w : Word) (i : Nat) : Byte := w.extractLsb' (24 - 8 * i) 8

/-- The four bytes of a word, in byte-string order. -/
def wordBytes (w : Word) : List Byte := [wordByte w 0, wordByte w 1, wordByte w 2, wordByte w 3]

/-- The word that packs four bytes, the first most significant. -/
def packWord (b0 b1 b2 b3 : Byte) : Word := b0 ++ b1 ++ b2 ++ b3

/-- `be64(v)` (R45, R114): 8 bytes, the most significant first. -/
def be64 (v : DWord) : List Byte :=
  (List.range 8).map fun i => v.extractLsb' (56 - 8 * i) 8

/-! ### The digest registers (10_state.md R33) -/

/-- DIGESTk. -/
def Digest.word (d : Digest) : Nat → Word
  | 0 => d.w0
  | 1 => d.w1
  | 2 => d.w2
  | 3 => d.w3
  | _ => d.w4

/-- `D[j]` for j = 0..19 (R33). -/
def Digest.byte (d : Digest) (j : Nat) : Byte := wordByte (d.word (j / 4)) (j % 4)

/-- The digest as a byte string, D[0] first. -/
def Digest.bytes (d : Digest) : List Byte :=
  wordBytes d.w0 ++ wordBytes d.w1 ++ wordBytes d.w2 ++ wordBytes d.w3 ++ wordBytes d.w4

/-! ### The key buffer (10_state.md R38) -/

/-- KEYBUFk: bytes 4k to 4k+3. -/
def keyWord (key : Vector Byte 64) (k : Fin 16) : Word :=
  packWord (key[4 * k.val]'(by omega)) (key[4 * k.val + 1]'(by omega))
    (key[4 * k.val + 2]'(by omega)) (key[4 * k.val + 3]'(by omega))

/-- The key buffer after KEYBUFk is written with `w`. -/
def setKeyWord (key : Vector Byte 64) (k : Fin 16) (w : Word) : Vector Byte 64 :=
  (((key.set (4 * k.val) (wordByte w 0) (by omega)).set (4 * k.val + 1) (wordByte w 1) (by omega)).set
    (4 * k.val + 2) (wordByte w 2) (by omega)).set (4 * k.val + 3) (wordByte w 3) (by omega)

/-- `K0` (42_otp_digest.md R113): the first KEYLEN bytes, then zeros up to 64. -/
def keyBlock (key : Vector Byte 64) (keylen : Nat) : List Byte :=
  key.toList.take keylen ++ List.replicate (Config.keyMax - keylen) 0

/-! ### The character mapper (41_base32.md R91, R92) -/

/-- The class of a character byte (R91). -/
inductive CharClass where
  /-- an alphabet character and its 5-bit symbol -/
  | sym (v : BitVec 5)
  /-- the pad character `=` -/
  | padc
  /-- whitespace -/
  | ws
  /-- every other byte -/
  | bad
deriving DecidableEq, Repr

/-- The whitespace bytes (R92). -/
def isWhitespace (c : Byte) : Bool := (0x09 ≤ c.toNat && c.toNat ≤ 0x0D) || c.toNat == 0x20

/-- `cls(c)` (R91). -/
def cls (c : Byte) : CharClass :=
  if 0x41 ≤ c.toNat ∧ c.toNat ≤ 0x5A then .sym (BitVec.ofNat 5 (c.toNat - 0x41))
  else if 0x61 ≤ c.toNat ∧ c.toNat ≤ 0x7A then .sym (BitVec.ofNat 5 (c.toNat - 0x61))
  else if 0x32 ≤ c.toNat ∧ c.toNat ≤ 0x37 then .sym (BitVec.ofNat 5 (c.toNat - 0x32 + 26))
  else if c.toNat = 0x3D then .padc
  else if isWhitespace c then .ws
  else .bad

end Sys2Proof.Machine
end

