-- ==== Sys2Proof/Machine/RegisterMap.lean ====
section
/-! DEFINITION. The register map of 10_state.md R18: names, offsets and access codes. -/

namespace Sys2Proof.Machine

/-- The named registers (R18). -/
inductive Reg where
  | id | version | ctrl | status | cmd | errinfo | keylen | b32stat | b32cnt | step | digits | factor
  | uidLo | uidHi | timeLo | timeHi | ctrLo | ctrHi | offset | bincode | otp | x | y | z
  | origuidLo | origuidHi | chkinfo | aLo | aHi | bLo | bHi | qLo | qHi | rLo | rHi
  | digest0 | digest1 | digest2 | digest3 | digest4
  | keybuf (k : Fin 16)
deriving DecidableEq, Repr

/-- The access codes (R19). CTRL and STATUS have codes of their own per field (R21, R22). -/
inductive Access where
  | ro | rw | wo | perField
deriving DecidableEq, Repr

/-- The byte offset of a register from P_BASE (R18). -/
def Reg.byteOffset : Reg → Nat
  | .id => 0x000
  | .version => 0x004
  | .ctrl => 0x008
  | .status => 0x00C
  | .cmd => 0x010
  | .errinfo => 0x014
  | .keylen => 0x018
  | .b32stat => 0x01C
  | .b32cnt => 0x020
  | .step => 0x024
  | .digits => 0x028
  | .factor => 0x02C
  | .uidLo => 0x030
  | .uidHi => 0x034
  | .timeLo => 0x038
  | .timeHi => 0x03C
  | .ctrLo => 0x040
  | .ctrHi => 0x044
  | .offset => 0x048
  | .bincode => 0x04C
  | .otp => 0x050
  | .x => 0x054
  | .y => 0x058
  | .z => 0x05C
  | .origuidLo => 0x060
  | .origuidHi => 0x064
  | .chkinfo => 0x068
  | .aLo => 0x070
  | .aHi => 0x074
  | .bLo => 0x078
  | .bHi => 0x07C
  | .qLo => 0x080
  | .qHi => 0x084
  | .rLo => 0x088
  | .rHi => 0x08C
  | .digest0 => 0x090
  | .digest1 => 0x094
  | .digest2 => 0x098
  | .digest3 => 0x09C
  | .digest4 => 0x0A0
  | .keybuf k => 0x100 + 4 * k.val

/-- The access code of a register (R18). -/
def Reg.access : Reg → Access
  | .id => .ro
  | .version => .ro
  | .ctrl => .perField
  | .status => .perField
  | .cmd => .wo
  | .errinfo => .ro
  | .keylen => .rw
  | .b32stat => .ro
  | .b32cnt => .ro
  | .step => .ro
  | .digits => .ro
  | .factor => .rw
  | .uidLo => .rw
  | .uidHi => .rw
  | .timeLo => .rw
  | .timeHi => .rw
  | .ctrLo => .rw
  | .ctrHi => .rw
  | .offset => .ro
  | .bincode => .ro
  | .otp => .ro
  | .x => .rw
  | .y => .rw
  | .z => .rw
  | .origuidLo => .ro
  | .origuidHi => .ro
  | .chkinfo => .ro
  | .aLo => .rw
  | .aHi => .rw
  | .bLo => .rw
  | .bHi => .rw
  | .qLo => .ro
  | .qHi => .ro
  | .rLo => .ro
  | .rHi => .ro
  | .digest0 => .ro
  | .digest1 => .ro
  | .digest2 => .ro
  | .digest3 => .ro
  | .digest4 => .ro
  | .keybuf _ => .rw

/-- The registers at offsets 0x000 to 0x05C. -/
def Reg.lowWindow : List Reg :=
  [.id, .version, .ctrl, .status, .cmd, .errinfo, .keylen, .b32stat, .b32cnt, .step, .digits, .factor,
   .uidLo, .uidHi, .timeLo, .timeHi, .ctrLo, .ctrHi, .offset, .bincode, .otp, .x, .y, .z]

/-- The registers at offsets 0x060 to 0x0A0. -/
def Reg.highWindow : List Reg :=
  [.origuidLo, .origuidHi, .chkinfo, .aLo, .aHi, .bLo, .bHi, .qLo, .qHi, .rLo, .rHi,
   .digest0, .digest1, .digest2, .digest3, .digest4]

/-- KEYBUF0 to KEYBUF15. -/
def Reg.keyWindow : List Reg :=
  [.keybuf 0, .keybuf 1, .keybuf 2, .keybuf 3, .keybuf 4, .keybuf 5, .keybuf 6, .keybuf 7,
   .keybuf 8, .keybuf 9, .keybuf 10, .keybuf 11, .keybuf 12, .keybuf 13, .keybuf 14, .keybuf 15]

/-- Every register of the map (R18). -/
def Reg.all : List Reg := Reg.lowWindow ++ Reg.highWindow ++ Reg.keyWindow

/-- The register at a byte offset; none where the window is unmapped (20_memory.md R50) or the offset
lies outside it. -/
def regAt (off : Nat) : Option Reg := Reg.all.find? fun r => r.byteOffset == off

/-- The register a host access reaches: 4 bytes at a multiple of 4 that names a register
(20_memory.md R49, R50). None is a bus error. -/
def accessedReg (off size : Nat) : Option Reg :=
  if size = 4 ∧ off % 4 = 0 then regAt off else none

end Sys2Proof.Machine
end

