-- ==== Sys2Proof/Machine/Ops.lean ====
section
/-! DEFINITION. The shared operations: error entry, issue, finish, reset, and the host's register
reads and writes. -/

namespace Sys2Proof.Machine

/-! ### Errors (60_exceptions.md R140 to R147)

PCORE takes no trap and saves no pc (R140, R146): an error is recorded in ERRCODE and ERRINFO. There
is no return from it either (R147): the host clears DONE (`writeStatus`) and issues again (`issue`). -/

/-- An error code and its detail: `raise Error(code, info)` of 00_scope.md R14. -/
structure CmdError where
  code : ErrCode
  info : Word
deriving DecidableEq, Repr

/-- Error entry (R143): `ERRCODE <- code` and `ERRINFO <- info`. A family's own error effects are
already in `s`. -/
def State.withError (e : CmdError) (s : State) : State :=
  { s with errcode := e.code, errinfo := e.info }

/-- An error completion's commit (R143): a next state, since the machine goes on. -/
def raiseError (e : CmdError) (s : State) : Result := .next (s.withError e)

/-- A command whose checks come first: the first failing check ends it with that error and nothing
else written (R143, R144); otherwise the command goes on. -/
def checked (check : Option CmdError) (s : State) (ok : Result) : Result :=
  match check with
  | some e => raiseError e s
  | none => ok

/-- The first failing check of a list in order (R144). -/
def firstError : List (Option CmdError) → Option CmdError
  | [] => none
  | some e :: _ => some e
  | none :: rest => firstError rest

/-- One check: an error when `bad` holds. -/
def failIf (bad : Bool) (e : CmdError) : Option CmdError := if bad then some e else none

/-! ### Issue and completion (40_command.md R73, R75) -/

/-- `issue(w)` (R73). -/
def issue (w : Word) (s : State) : State :=
  { s with
    cur := some w
    inflight := true
    done := false
    errcode := .noError
    valid := false
    errinfo := 0 }

/-- The end of every completion (R75): `INFLIGHT <- 0` and `DONE <- 1`. -/
def State.finish (s : State) : State := { s with inflight := false, done := true }

/-- The completion of what a command commits (R75). -/
def finishResult : Result → Result
  | .next s => .next s.finish
  | .fault f => .fault f
  | .refused r => .refused r

/-! ### Reset (70_reset_and_hazards.md R160, R161, R163) -/

/-- The reset of R161, the same for the pin and for CTRL.SRST (R160). What the outside still has to do
and what the host has read are not registers of PCORE and stay. -/
def resetState (s : State) : State :=
  { State.reset with schedule := s.schedule, rdata := s.rdata }

/-! ### Host reads (20_memory.md R44, R52; 10_state.md R18 to R39) -/

/-- The value a read of a register returns (R19, R52). -/
def readReg (r : Reg) (s : State) : Word :=
  match r with
  | .id => Config.idValue
  | .version => Config.versionValue
  | .ctrl => ctrlWord s
  | .status => statusWord s
  | .cmd => 0
  | .errinfo => s.errinfo
  | .keylen => s.keylen.setWidth 32
  | .b32stat => b32statWord s.b32stat
  | .b32cnt => s.b32cnt
  | .step => BitVec.ofNat 32 Config.step
  | .digits => BitVec.ofNat 32 Config.digits
  | .factor => s.factor
  | .uidLo => lo s.uid
  | .uidHi => hi s.uid
  | .timeLo => lo s.time
  | .timeHi => hi s.time
  | .ctrLo => lo s.ctr
  | .ctrHi => hi s.ctr
  | .offset => s.offset.setWidth 32
  | .bincode => s.bincode.setWidth 32
  | .otp => s.otp.setWidth 32
  | .x => s.x
  | .y => s.y
  | .z => s.z
  | .origuidLo => lo s.origuid
  | .origuidHi => hi s.origuid
  | .chkinfo => chkinfoWord s.chkinfo
  | .aLo => lo s.a
  | .aHi => hi s.a
  | .bLo => lo s.b
  | .bHi => hi s.b
  | .qLo => lo s.q
  | .qHi => hi s.q
  | .rLo => lo s.r
  | .rHi => hi s.r
  | .digest0 => s.digest.w0
  | .digest1 => s.digest.w1
  | .digest2 => s.digest.w2
  | .digest3 => s.digest.w3
  | .digest4 => s.digest.w4
  | .keybuf k => keyWord s.key k

/-- The bus's answer to a read (R44, R51). -/
inductive BusAnswer where
  /-- the word read -/
  | data (v : Word)
  /-- an error response, with the data word that goes with it -/
  | error (v : Word)
deriving DecidableEq, Repr

/-- `MemRead(off, size)` (R44). A bad access gets the data word 0 with an error response (R51). -/
def memRead (off size : Nat) (s : State) : BusAnswer :=
  match accessedReg off size with
  | some r => .data (readReg r s)
  | none => .error 0

/-! ### Host writes (20_memory.md R53; 10_state.md R19 to R38) -/

/-- A write of CTRL (R21): SRST first, which discards the IE bit of the same write (R163). -/
def writeCtrl (v : Word) (s : State) : State :=
  if v.getLsbD 1 then resetState s else { s with ie := v.getLsbD 0 }

/-- A write of STATUS (R22, R53): W1C on DONE and WIGN, every other field untouched. -/
def writeStatus (v : Word) (s : State) : State :=
  { s with
    done := if v.getLsbD 1 then false else s.done
    wign := if v.getLsbD 4 then false else s.wign }

/-- A store into a register per its field widths (R19, R53). A store into a read-only register is
ignored; CTRL, STATUS and CMD act through their own rules and hold nothing here. -/
def storeReg (r : Reg) (v : Word) (s : State) : State :=
  match r with
  | .id => s
  | .version => s
  | .ctrl => s
  | .status => s
  | .cmd => s
  | .errinfo => s
  | .keylen => { s with keylen := v.extractLsb' 0 7 }
  | .b32stat => s
  | .b32cnt => s
  | .step => s
  | .digits => s
  | .factor => { s with factor := v }
  | .uidLo => { s with uid := setLo s.uid v }
  | .uidHi => { s with uid := setHi s.uid v }
  | .timeLo => { s with time := setLo s.time v }
  | .timeHi => { s with time := setHi s.time v }
  | .ctrLo => { s with ctr := setLo s.ctr v }
  | .ctrHi => { s with ctr := setHi s.ctr v }
  | .offset => s
  | .bincode => s
  | .otp => s
  | .x => { s with x := v }
  | .y => { s with y := v }
  | .z => { s with z := v }
  | .origuidLo => s
  | .origuidHi => s
  | .chkinfo => s
  | .aLo => { s with a := setLo s.a v }
  | .aHi => { s with a := setHi s.a v }
  | .bLo => { s with b := setLo s.b v }
  | .bHi => { s with b := setHi s.b v }
  | .qLo => s
  | .qHi => s
  | .rLo => s
  | .rHi => s
  | .digest0 => s
  | .digest1 => s
  | .digest2 => s
  | .digest3 => s
  | .digest4 => s
  | .keybuf k => { s with key := setKeyWord s.key k v }

/-- A write of a mapped register, in the order of R53's pseudocode: CTRL and STATUS act whatever BUSY
is, any other write while INFLIGHT = 1 is ignored and sets WIGN, CMD issues, the rest store. -/
def writeReg (r : Reg) (v : Word) (s : State) : State :=
  if r = .ctrl then writeCtrl v s
  else if r = .status then writeStatus v s
  else if s.inflight then { s with wign := true }
  else if r = .cmd then issue v s
  else storeReg r v s

/-- `MemWrite(off, size, v)` (R44, R53); none is a bus error, which changes nothing (R51). -/
def memWrite (off size : Nat) (v : Word) (s : State) : Option State :=
  (accessedReg off size).map fun r => writeReg r v s

/-- One host access (R44): a bad one ends the host's run with `BusError(off, size)` (R51). A read
changes nothing but what the host has read (R52). -/
def hostAccess (access : HostAccess) (s : State) : Result :=
  match access with
  | .read off size =>
    match memRead off size s with
    | .data v => .next { s with rdata := some v }
    | .error _ => .fault (.busError off size)
  | .write off size v =>
    match memWrite off size v s with
    | some t => .next t
    | none => .fault (.busError off size)

end Sys2Proof.Machine
end

