-- ==== Sys2Proof/Machine/Base32.lean ====
section
/-! DEFINITION. The base-32 decoder: B32RST, B32CH and B32FIN (41_base32.md). -/

namespace Sys2Proof.Machine

/-- ERRINFO of E_DECODE (R94, 60_exceptions.md R142): INDEX, 0, REASON, CHAR. -/
def decodeInfo (idx : Word) (reason : BitVec 4) (c : Byte) : Word :=
  idx.extractLsb' 0 16 ++ (0 : BitVec 4) ++ reason ++ c

/-- ERRINFO of E_KEYOVF (R95, R142): INDEX, 0, CHAR. -/
def keyovfInfo (idx : Word) (c : Byte) : Word := idx.extractLsb' 0 16 ++ (0 : BitVec 8) ++ c

/-- `STATE <- ERR`, the decoder's error effect (R94, R98, R143). -/
def State.decoderFailed (s : State) : State := { s with b32stat := { s.b32stat with state := .err } }

/-- `B32CNT <- cnt1` with `cnt1 = wrap32(idx + 1)`, written on every outcome of B32CH (R94). -/
def State.counted (s : State) : State := { s with b32cnt := s.b32cnt + 1 }

/-- `fail(r)` of R94. -/
def charFails (reason : BitVec 4) (c : Byte) (s : State) : Result :=
  raiseError ⟨.decode, decodeInfo s.b32cnt reason c⟩ s.counted.decoderFailed

/-- B32RST (R93). -/
def execB32rst (s : State) : Result :=
  .next { s with
    b32stat := { state := .idle, qpos := 0, nbits := 0, dcnt := 0, acc := 0 }
    b32cnt := 0
    keylen := 0
    key := Vector.replicate 64 0 }

/-- `pack(v)` (R95): the pending bits with the 5 bits of `v` appended, and a whole byte, if there is
one, stored at KEY[KEYLEN]. None is E_KEYOVF. -/
def pack (v : BitVec 5) (s : State) : Option State :=
  let acc := s.b32stat.acc.toNat * 2 ^ 5 + v.toNat
  let nb := s.b32stat.nbits.toNat + 5
  if nb < 8 then
    some { s with b32stat := { s.b32stat with acc := BitVec.ofNat 7 acc, nbits := BitVec.ofNat 4 nb } }
  else if Config.keyMax ≤ s.keylen.toNat then none
  else
    some { s with
      key := s.key.setIfInBounds s.keylen.toNat (BitVec.ofNat 8 (acc / 2 ^ (nb - 8)))
      keylen := s.keylen + 1
      b32stat := { s.b32stat with
        acc := BitVec.ofNat 7 (acc % 2 ^ (nb - 8))
        nbits := BitVec.ofNat 4 (nb - 8) } }

/-- A data symbol (R94, class SYM). -/
def symbolFed (v : BitVec 5) (c : Byte) (s : State) : Result :=
  if s.b32stat.state = .pad ∨ s.b32stat.state = .ended then charFails 3 c s
  else
    match pack v s with
    | none => raiseError ⟨.keyovf, keyovfInfo s.b32cnt c⟩ s.counted.decoderFailed
    | some t =>
      .next { t.counted with b32stat := { t.b32stat with qpos := t.b32stat.qpos + 1, state := .data } }

/-- The positions at which padding may begin (R96). -/
def padMayBegin (qpos : BitVec 3) : Bool := qpos == 2 || qpos == 4 || qpos == 5 || qpos == 7

/-- One `=` taken at position QPOS of a quantum with `dc` data symbols (R96): END when it fills the
quantum, else PAD. -/
def padTaken (b : B32Stat) (dc : BitVec 4) : B32Stat :=
  if b.qpos.toNat + 1 = 8 then { b with qpos := 0, state := .ended, dcnt := dc }
  else { b with qpos := b.qpos + 1, state := .pad, dcnt := dc }

/-- `pad()` (R96), for the states that reach it: B32CH has already refused ERR and DONE. -/
def padFed (c : Byte) (s : State) : Result :=
  match s.b32stat.state with
  | .idle => charFails 2 c s
  | .ended => charFails 3 c s
  | .data =>
    if padMayBegin s.b32stat.qpos then
      .next { s.counted with
        b32stat := padTaken { s.b32stat with acc := 0, nbits := 0 } (s.b32stat.qpos.setWidth 4) }
    else charFails 2 c s
  | .pad => .next { s.counted with b32stat := padTaken s.b32stat s.b32stat.dcnt }
  | .done => charFails 4 c s
  | .err => charFails 6 c s

/-- B32CH c (R94). -/
def execB32ch (c : Byte) (s : State) : Result :=
  if s.b32stat.state = .err then charFails 6 c s
  else if s.b32stat.state = .done then charFails 4 c s
  else
    match cls c with
    | .ws => .next s.counted
    | .bad => charFails 1 c s
    | .sym v => symbolFed v c s
    | .padc => padFed c s

/-- B32FIN (R98). -/
def execB32fin (s : State) : Result :=
  match s.b32stat.state with
  | .err => raiseError ⟨.decode, decodeInfo s.b32cnt 6 0⟩ s
  | .idle => .next { s with b32stat := { s.b32stat with state := .done } }
  | .ended => .next { s with b32stat := { s.b32stat with state := .done } }
  | .done => .next { s with b32stat := { s.b32stat with state := .done } }
  | .data =>
    if s.b32stat.qpos = 0 then .next { s with b32stat := { s.b32stat with state := .done } }
    else raiseError ⟨.decode, decodeInfo s.b32cnt 5 0⟩ s.decoderFailed
  | .pad => raiseError ⟨.decode, decodeInfo s.b32cnt 5 0⟩ s.decoderFailed

end Sys2Proof.Machine
end

