-- ==== Sys2Proof/Machine/Divider.lean ====
section
/-! DEFINITION. The 64-bit unsigned divider (43_paycode_divider.md R125). -/

namespace Sys2Proof.Machine

/-- A quotient and a remainder. -/
structure DivResult where
  quotient : DWord
  remainder : DWord
deriving DecidableEq, Repr

/-- `divu64(a, b)` for b ≠ 0 (R125): the floor quotient and the remainder. Every command that uses it
has checked the divisor or has a nonzero hardwired one (R134). -/
def divu64 (a b : DWord) : DivResult :=
  { quotient := BitVec.ofNat 64 (a.toNat / b.toNat), remainder := BitVec.ofNat 64 (a.toNat % b.toNat) }

/-- The restoring algorithm of R125 on the low `n` bits of the dividend, from bit n-1 down, with the
partial remainder so far and the quotient bits so far. The partial remainder needs 65 bits, so it is
held as an exact number. Not used by any command: the spec gives it as one implementation. -/
def restoringSteps (a : DWord) (b : Nat) : Nat → Nat × Nat → Nat × Nat
  | 0, acc => acc
  | n + 1, (q, r) =>
    let r := 2 * r + (a.getLsbD n).toNat
    if b ≤ r then restoringSteps a b n (2 * q + 1, r - b) else restoringSteps a b n (2 * q, r)

/-- The restoring algorithm of R125: i from 63 down to 0. -/
def restoringDivide (a b : DWord) : DivResult :=
  let qr := restoringSteps a b.toNat 64 (0, 0)
  { quotient := BitVec.ofNat 64 qr.1, remainder := BitVec.ofNat 64 qr.2 }

end Sys2Proof.Machine
end

