-- ==== Sys2Proof/Machine/Sha1.lean ====
section
/-! DEFINITION. SHA-1 and HMAC-SHA-1 (42_otp_digest.md R110, R111, R115). -/

namespace Sys2Proof.Machine

/-- `ROTL_n(w)` (00_scope.md R13). -/
def rotl (n : Nat) (w : Word) : Word := w.rotateLeft n

/-- The initial chaining value IV (R110). -/
def sha1Iv : Digest :=
  { w0 := 0x67452301, w1 := 0xEFCDAB89, w2 := 0x98BADCFE, w3 := 0x10325476, w4 := 0xC3D2E1F0 }

/-- `f(t, b, c, d)` (R110). -/
def sha1F (t : Nat) (b c d : Word) : Word :=
  if t ≤ 19 then (b &&& c) ||| (~~~b &&& d)
  else if t ≤ 39 then b ^^^ c ^^^ d
  else if t ≤ 59 then (b &&& c) ||| (b &&& d) ||| (c &&& d)
  else b ^^^ c ^^^ d

/-- `K(t)` (R110). -/
def sha1K (t : Nat) : Word :=
  if t ≤ 19 then 0x5A827999
  else if t ≤ 39 then 0x6ED9EBA1
  else if t ≤ 59 then 0x8F1BBCDC
  else 0xCA62C1D6

/-- The bytes of a block as big-endian words (R111: `W[t]` for t in 0..15). -/
def bigEndianWords : List Byte → List Word
  | b0 :: b1 :: b2 :: b3 :: rest => packWord b0 b1 b2 b3 :: bigEndianWords rest
  | _ => []

/-- `n` more words of the message schedule (R111). The list is held latest first, so `W[t-3]`, `W[t-8]`,
`W[t-14]` and `W[t-16]` stand at places 2, 7, 13 and 15. -/
def extendSchedule : Nat → List Word → List Word
  | 0, ws => ws
  | n + 1, ws =>
    extendSchedule n (rotl 1 (ws.getD 2 0 ^^^ ws.getD 7 0 ^^^ ws.getD 13 0 ^^^ ws.getD 15 0) :: ws)

/-- The message schedule `W[0..79]` of a 64-byte block (R111). -/
def messageSchedule (m : List Byte) : List Word :=
  (extendSchedule 64 (bigEndianWords m).reverse).reverse

/-- Round `t` on the working variables a to e (R111). -/
def sha1Round (t : Nat) (wt : Word) (v : Digest) : Digest :=
  { w0 := rotl 5 v.w0 + sha1F t v.w1 v.w2 v.w3 + v.w4 + sha1K t + wt
    w1 := v.w0
    w2 := rotl 30 v.w1
    w3 := v.w2
    w4 := v.w3 }

/-- The rounds from `t` on, one for each word left of the schedule (R111). -/
def sha1Rounds : Nat → List Word → Digest → Digest
  | _, [], v => v
  | t, wt :: ws, v => sha1Rounds (t + 1) ws (sha1Round t wt v)

/-- The word-by-word sum of two chaining values, modulo 2^32 (R111). -/
def addWords (h v : Digest) : Digest :=
  { w0 := h.w0 + v.w0, w1 := h.w1 + v.w1, w2 := h.w2 + v.w2, w3 := h.w3 + v.w3, w4 := h.w4 + v.w4 }

/-- `compress(H, M)` (R111). -/
def compress (h : Digest) (m : List Byte) : Digest := addWords h (sha1Rounds 0 (messageSchedule m) h)

/-- The number of zero bytes that padding inserts after a message of `len` bytes and 0x80 (R111). -/
def padZeros (len : Nat) : Nat := (119 - len % 64) % 64

/-- The padded message `m ++ 0x80 ++ zeros ++ be64(8L)` (R111). -/
def sha1Padded (m : List Byte) : List Byte :=
  m ++ [0x80] ++ List.replicate (padZeros m.length) 0 ++ be64 (BitVec.ofNat 64 (8 * m.length))

/-- `compress` over `n` 64-byte blocks in turn (R111). -/
def compressBlocks : Nat → List Byte → Digest → Digest
  | 0, _, h => h
  | n + 1, m, h => compressBlocks n (m.drop 64) (compress h (m.take 64))

/-- `SHA1(m)` (R111). -/
def sha1 (m : List Byte) : Digest :=
  compressBlocks ((sha1Padded m).length / 64) (sha1Padded m) sha1Iv

/-- A key block XORed byte by byte with a pad byte (R115). -/
def xorPad (pad : Byte) (k0 : List Byte) : List Byte := k0.map (· ^^^ pad)

/-- `HMAC(K0, msg)` (R115), ipad 0x36 and opad 0x5C. -/
def hmacSha1 (k0 msg : List Byte) : Digest :=
  sha1 (xorPad 0x5C k0 ++ (sha1 (xorPad 0x36 k0 ++ msg)).bytes)

end Sys2Proof.Machine
end

