-- ==== Sys2Proof/Machine/Otp.lean ====
section
/-! DEFINITION. The digest path: CTRGEN, HMAC, TRUNC and OTPGEN (42_otp_digest.md). -/

namespace Sys2Proof.Machine

/-- `keycheck()` (R112): E_KEYSTATE unless the decoder is IDLE or DONE, then E_KEYLEN unless
1 ≤ KEYLEN ≤ 64. None is a usable key. -/
def keycheck (s : State) : Option CmdError :=
  firstError
    [failIf (s.b32stat.state != .idle && s.b32stat.state != .done)
       ⟨.keystate, s.b32stat.state.toBits.setWidth 32⟩,
     failIf (s.keylen == 0 || Config.keyMax < s.keylen.toNat) ⟨.keylen, s.keylen.setWidth 32⟩]

/-- The counter of a time: `TIME div 30`, on the divider (R116). -/
def counterOf (time : DWord) : DWord := (divu64 time (BitVec.ofNat 64 Config.step)).quotient

/-- The digest of a counter under the key held: `HMAC(K0, be64(c))` (R113, R114, R117). -/
def digestOf (s : State) (c : DWord) : Digest := hmacSha1 (keyBlock s.key s.keylen.toNat) (be64 c)

/-- What truncation gives (R118). -/
structure Truncated where
  off : BitVec 4
  number : BitVec 31
  otp : BitVec 14
deriving DecidableEq, Repr

/-- `trunc(D)` (R118): the low nibble of D[19] chooses the window, its first byte loses its top bit,
and the reduction modulo 10^4 runs on the divider (R119). -/
def trunc (d : Digest) : Truncated :=
  let off := (d.byte 19).extractLsb' 0 4
  let j := off.toNat
  let number := packWord (d.byte j &&& 0x7F) (d.byte (j + 1)) (d.byte (j + 2)) (d.byte (j + 3))
  { off := off
    number := number.setWidth 31
    otp := (divu64 (number.setWidth 64) (BitVec.ofNat 64 Config.otpModulus)).remainder.setWidth 14 }

/-- `OFFSET <- o; BINCODE <- n; OTP <- p` (R119). -/
def State.withTruncated (t : Truncated) (s : State) : State :=
  { s with offset := t.off, bincode := t.number, otp := t.otp }

/-- The commit of `generate` (R120), shared by OTPGEN and PAYCHK:
`CTR <- c; DIGEST <- d; OFFSET <- o; BINCODE <- n; OTP <- p`. -/
def State.withFreshOtp (s : State) : State :=
  let c := counterOf s.time
  let d := digestOf s c
  { s with ctr := c, digest := d }.withTruncated (trunc d)

/-- CTRGEN (R116). -/
def execCtrgen (s : State) : Result := .next { s with ctr := counterOf s.time }

/-- HMAC (R117). -/
def execHmac (s : State) : Result :=
  checked (keycheck s) s (.next { s with digest := digestOf s s.ctr })

/-- TRUNC (R119). -/
def execTrunc (s : State) : Result := .next (s.withTruncated (trunc s.digest))

/-- OTPGEN (R120). -/
def execOtpgen (s : State) : Result := checked (keycheck s) s (.next s.withFreshOtp)

end Sys2Proof.Machine
end

