-- ==== Sys2Proof/Machine/Paycode.lean ====
section
/-! DEFINITION. The divider and the paycode arithmetic: DIV, PAYENC, PAYREC and PAYCHK
(43_paycode_divider.md). Paycode intermediates are exact numbers (R127). -/

namespace Sys2Proof.Machine

/-- E_DIV0, whose ERRINFO is 0 (60_exceptions.md R142). -/
def divByZero : CmdError := ⟨.div0, 0⟩

/-- E_RANGE with its reason (R142). -/
def rangeError (reason : Word) : CmdError := ⟨.range, reason⟩

/-- DIV (R126). -/
def execDiv (s : State) : Result :=
  checked (failIf (s.b == 0) divByZero) s
    (.next { s with q := (divu64 s.a s.b).quotient, r := (divu64 s.a s.b).remainder })

/-- The exact `y = uid div x + factor * x` of R128. -/
def encodedY (s : State) : Nat :=
  (divu64 s.uid (s.x.setWidth 64)).quotient.toNat + s.factor.toNat * s.x.toNat

/-- PAYENC's checks in order (R128): X = 0, X > XMAX, y > YMAX. -/
def encodeCheck (s : State) : Option CmdError :=
  firstError
    [failIf (s.x == 0) divByZero,
     failIf (Config.xMax < s.x.toNat) (rangeError 1),
     failIf (Config.yMax < encodedY s) (rangeError 2)]

/-- PAYENC (R128): past the checks y and z fit their registers. -/
def execPayenc (s : State) : Result :=
  checked (encodeCheck s) s
    (.next { s with
      y := BitVec.ofNat 32 (encodedY s)
      z := (divu64 s.uid (s.x.setWidth 64)).remainder.setWidth 32 })

/-- `fieldcheck()` (R131). -/
def fieldcheck (s : State) : Option CmdError :=
  firstError
    [failIf (Config.xMax < s.x.toNat) (rangeError 1),
     failIf (Config.yMax < s.y.toNat) (rangeError 2),
     failIf (Config.zMax < s.z.toNat) (rangeError 3)]

/-- The exact `t = Y - FACTOR * X`, which may be negative (R130, R132). -/
def recoveredT (s : State) : Int := (s.y.toNat : Int) - (s.factor.toNat : Int) * (s.x.toNat : Int)

/-- `X * t + Z` for t ≥ 0 (R130, R132). -/
def recoveredUid (s : State) : DWord :=
  BitVec.ofNat 64 (s.x.toNat * (recoveredT s).toNat + s.z.toNat)

/-- PAYREC (R130). -/
def execPayrec (s : State) : Result :=
  checked (firstError [fieldcheck s, failIf (recoveredT s < 0) (rangeError 4)]) s
    (.next { s with origuid := recoveredUid s })

/-- PAYCHK's recovered identifier (R132): 0 when `y - factor*x` is negative. -/
def checkedUid (s : State) : DWord := if recoveredT s < 0 then 0 else recoveredUid s

/-- PAYCHK's CHKINFO (R132): UIDOK needs t ≥ 0, OTPOK compares the fresh OTP with X. -/
def checkInfo (s : State) : ChkInfo :=
  { uidok := !decide (recoveredT s < 0) && checkedUid s == s.uid
    otpok := s.withFreshOtp.otp.toNat == s.x.toNat
    neg := decide (recoveredT s < 0) }

/-- PAYCHK (R132): the fields and the key are checked before anything is computed; an invalid paycode
is a result, not an error (R133). -/
def execPaychk (s : State) : Result :=
  checked (firstError [fieldcheck s, keycheck s]) s
    (.next { s.withFreshOtp with
      origuid := checkedUid s
      chkinfo := checkInfo s
      valid := (checkInfo s).uidok && (checkInfo s).otpok })

end Sys2Proof.Machine
end

