-- ==== Sys2Proof/Machine/Protocol.lean ====
section
/-! DEFINITION. The protocol family: NOP (40_command.md R79). -/

namespace Sys2Proof.Machine

/-- NOP (R79): no writes and no error. -/
def execNop (s : State) : Result := .next s

end Sys2Proof.Machine
end

