-- ==== Sys2Proof/Machine/Dispatch.lean ====
section
/-! DEFINITION. `exec` of 40_command.md R75: what each command commits, its results or its error
effects. The common end of a completion is `finishResult`. -/

namespace Sys2Proof.Machine

def exec (i : Instr) (s : State) : Host.Outcome State Fault Refusal :=
  match i with
  | .nop => Sys2Proof.Machine.execNop s
  | .b32rst => Sys2Proof.Machine.execB32rst s
  | .b32ch c => Sys2Proof.Machine.execB32ch c s
  | .b32fin => Sys2Proof.Machine.execB32fin s
  | .ctrgen => Sys2Proof.Machine.execCtrgen s
  | .hmac => Sys2Proof.Machine.execHmac s
  | .trunc => Sys2Proof.Machine.execTrunc s
  | .otpgen => Sys2Proof.Machine.execOtpgen s
  | .div => Sys2Proof.Machine.execDiv s
  | .payenc => Sys2Proof.Machine.execPayenc s
  | .payrec => Sys2Proof.Machine.execPayrec s
  | .paychk => Sys2Proof.Machine.execPaychk s

end Sys2Proof.Machine
end

