-- ==== Sys2Proof/Machine/Sequencer.lean ====
section
/-! DEFINITION. The core's step `complete` (40_command.md R75) and the turns of the single order
(20_memory.md R56). -/

namespace Sys2Proof.Machine

/-- What the latched word commits: the command's effects, or E_ILLEGAL with the word as its detail and
no other effect (30_encoding.md R65, 40_command.md R75). -/
def execWord (w : Word) (s : State) : Result :=
  match decode w with
  | .ok i => exec i s
  | .error _ => raiseError ⟨.illegal, w⟩ s

/-- `complete` (R75), for a state with INFLIGHT = 1. -/
def complete (s : State) : Result :=
  match s.cur with
  | some w => finishResult (execWord w s)
  | none => .fault .noLatchedCommand

/-- The core's turn: `complete` is enabled only when INFLIGHT = 1 (R75); an idle core keeps all state
(60_exceptions.md R158). -/
def coreTurn (s : State) : Result := if s.inflight then complete s else .next s

/-- One turn on the machine. -/
def runTurn (t : Turn) (s : State) : Result :=
  match t with
  | .host access => hostAccess access s
  | .core => coreTurn s
  | .rst => .next (resetState s)

/-- The next thing to happen. With no turn left the core has its turn: a command in flight completes
in the end (R78, weak fairness), and an idle machine stays as it is (R158, R162). -/
def nextTurn (s : State) : Result :=
  match s.schedule with
  | [] => coreTurn s
  | t :: rest => runTurn t { s with schedule := rest }

/-- The host's issue of a command word, followed by the core's turn (R73, R78). -/
def issueNext (w : Word) (s : State) : State :=
  { issue w s with schedule := .core :: s.schedule }

end Sys2Proof.Machine
end

