-- ==== Sys2Proof/Machine/HostProgram.lean ====
section
/-! DEFINITION. Host programs as turns: the notation of 30_encoding.md R66 and the macros of R67. -/

namespace Sys2Proof.Machine

/-- `WR NAME, v` (R66). -/
def hostWr (r : Reg) (v : Word) : Turn := .host (.write r.byteOffset 4 v)

/-- `RD NAME` (R66). -/
def hostRd (r : Reg) : Turn := .host (.read r.byteOffset 4)

/-- `CMD m` (R66). -/
def hostCmd (i : Instr) : Turn := hostWr .cmd (encode i)

/-- `POLL` (R66): the host reads STATUS while BUSY = 1, `waits` times here, the core completes, and
the last read sees BUSY = 0 (40_command.md R78 leaves `waits` open). -/
def hostPoll (waits : Nat) : List Turn :=
  List.replicate waits (hostRd .status) ++ [.core, hostRd .status]

/-- `DO m` (R67): `CMD m; POLL`. -/
def hostDo (i : Instr) (waits : Nat) : List Turn := hostCmd i :: hostPoll waits

/-- The two halves of a 64-bit name: `NAME_LO` and `NAME_HI` (R67). -/
structure RegPair where
  loReg : Reg
  hiReg : Reg
deriving DecidableEq, Repr

/-- UID, TIME, CTR, A, B, Q, R and ORIGUID (10_state.md R18, R39). -/
def uidPair : RegPair := ⟨.uidLo, .uidHi⟩
@[inherit_doc uidPair] def timePair : RegPair := ⟨.timeLo, .timeHi⟩
@[inherit_doc uidPair] def ctrPair : RegPair := ⟨.ctrLo, .ctrHi⟩
@[inherit_doc uidPair] def aPair : RegPair := ⟨.aLo, .aHi⟩
@[inherit_doc uidPair] def bPair : RegPair := ⟨.bLo, .bHi⟩
@[inherit_doc uidPair] def qPair : RegPair := ⟨.qLo, .qHi⟩
@[inherit_doc uidPair] def rPair : RegPair := ⟨.rLo, .rHi⟩
@[inherit_doc uidPair] def origuidPair : RegPair := ⟨.origuidLo, .origuidHi⟩

/-- `WR64 NAME, v` (R67). -/
def hostWr64 (p : RegPair) (v : DWord) : List Turn :=
  [hostWr p.loReg (v.extractLsb' 0 32), hostWr p.hiReg (v.extractLsb' 32 32)]

/-- `RD64 NAME` (R67). -/
def hostRd64 (p : RegPair) : List Turn := [hostRd p.loReg, hostRd p.hiReg]

/-- `LDKEY32 "s"` (R67): B32RST, one B32CH per byte, B32FIN. Each command is given with its own number of
busy polls, since the delay of each is open on its own (40_command.md R78). -/
def hostLdkey32 (rstWaits : Nat) (text : List (Byte × Nat)) (finWaits : Nat) : List Turn :=
  hostDo .b32rst rstWaits ++ text.flatMap (fun c => hostDo (.b32ch c.1) c.2) ++ hostDo .b32fin finWaits

/-- Word `k` of a byte string: bytes 4k to 4k+3, the first most significant, bytes past the end 0 (R67). -/
def rawKeyWord (bytes : List Byte) (k : Nat) : Word :=
  bytes.getD (4 * k) 0 ++ bytes.getD (4 * k + 1) 0 ++ bytes.getD (4 * k + 2) 0 ++ bytes.getD (4 * k + 3) 0

/-- `LDKEYRAW b` (R67): B32RST, the key words that b covers, then KEYLEN. DESIGN CHOICE, log entry 16: for more
than 64 bytes, where R67 names words that no register holds, the words past KEYBUF15 are left out and KEYLEN
is still written with the full length. -/
def hostLdkeyraw (bytes : List Byte) (waits : Nat) : List Turn :=
  hostDo .b32rst waits ++
    ((List.finRange 16).filter fun k => decide (4 * k.val < bytes.length)).map
      (fun k => hostWr (.keybuf k) (rawKeyWord bytes k.val)) ++
    [hostWr .keylen (BitVec.ofNat 32 bytes.length)]

end Sys2Proof.Machine
end

