-- ==== Sys2Proof/Safety.lean ====
section
/-! DEFINITION. The invariant of PCORE and what counts as a safe and a finished run. -/

namespace Sys2Proof.Machine

/-- DCNT is a legal count of data symbols in a padded quantum (10_state.md R26, 41_base32.md R96). -/
abbrev B32Stat.dcntLegal (b : B32Stat) : Prop := b.dcnt = 2 ∨ b.dcnt = 4 ∨ b.dcnt = 5 ∨ b.dcnt = 7

/-- The decoder's registers are consistent with its state (R26, R90, R95, R96): the packer holds fewer
than 8 bits and nothing above them, in DATA it holds 5 bits a symbol modulo 8, and at every point
where text may end it holds nothing. -/
abbrev B32Stat.Consistent (b : B32Stat) : Prop :=
  b.nbits.toNat ≤ 7 ∧ b.acc.toNat < 2 ^ b.nbits.toNat ∧ (b.dcnt = 0 ∨ b.dcntLegal) ∧
  (b.state = .idle → b.qpos = 0 ∧ b.nbits = 0 ∧ b.dcnt = 0) ∧
  (b.state = .data → b.nbits.toNat = 5 * b.qpos.toNat % 8 ∧ b.dcnt = 0) ∧
  (b.state = .pad → b.nbits = 0 ∧ b.dcntLegal ∧ b.dcnt.toNat < b.qpos.toNat) ∧
  (b.state = .ended → b.qpos = 0 ∧ b.nbits = 0 ∧ b.dcntLegal) ∧
  (b.state = .done → b.qpos = 0 ∧ b.nbits = 0)

/-- What a command in flight means (40_command.md R73): a word is latched, and DONE, ERRCODE, VALID
and ERRINFO are as issue left them. -/
abbrev State.FlightConsistent (s : State) : Prop :=
  s.inflight = true →
    s.cur.isSome = true ∧ s.done = false ∧ s.errcode = .noError ∧ s.valid = false

/-- The record of the last completion (10_state.md R22, R24, R36): without an error there is no
detail, and VALID means that both checks held. -/
abbrev State.RecordConsistent (s : State) : Prop :=
  (s.errcode = .noError → s.errinfo = 0) ∧
  (s.valid = true → s.errcode = .noError ∧ s.chkinfo.uidok = true ∧ s.chkinfo.otpok = true) ∧
  (s.chkinfo.neg = true → s.chkinfo.uidok = false)

/-- The truncation results and ORIGUID are in their ranges (42_otp_digest.md R118, R122,
43_paycode_divider.md R130). -/
abbrev State.ResultsInRange (s : State) : Prop :=
  s.otp.toNat = s.bincode.toNat % 10000 ∧ s.origuid.toNat ≤ 9999 * 99999999 + 9999

/-- The invariant of the machine: it holds at reset and every step keeps it. -/
abbrev State.Inv (s : State) : Prop :=
  s.b32stat.Consistent ∧ s.FlightConsistent ∧ s.RecordConsistent ∧ s.ResultsInRange

/-- A host access that the window accepts (20_memory.md R49, R50). -/
abbrev HostAccess.valid : HostAccess → Bool
  | .read off size => (accessedReg off size).isSome
  | .write off size _ => (accessedReg off size).isSome

/-- A turn that is no bus error. -/
abbrev Turn.valid : Turn → Bool
  | .host a => a.valid
  | .core => true
  | .rst => true

/-- A step is safe when it answers a next state. -/
def State.SafeStep (s : State) : Prop := ∃ t, step s = .next t

/-- The host program's run is over (70_reset_and_hazards.md R172): its last access is done and
BUSY = 0. DESIGN CHOICE, log entry 17: an rst turn after the last access still belongs to the run, so the run
is over when no turn of any kind is left. -/
def State.runEnded (s : State) : Bool := s.schedule.isEmpty && !s.inflight

end Sys2Proof.Machine
end

