-- ==== Sys2Proof/Certificates/Slice0/Obligations.lean ====
section
/-! DEFINITION. The statements for the provers, and the few words of the spec they are written in. -/

namespace Sys2Proof.Spec

open Sys2Proof.Machine

/-- The reset column of 10_state.md R18. -/
def resetWord : Reg → Word
  | .id => 0x50434F52
  | .version => 0x00010000
  | .step => 30
  | .digits => 4
  | .factor => 5
  | .uidLo => Config.uidInit.extractLsb' 0 32
  | .uidHi => Config.uidInit.extractLsb' 32 32
  | _ => 0

/-- The reset effect of 70_reset_and_hazards.md R161: every register, and the hidden state. -/
def isResetState (t : State) : Prop :=
  (∀ r : Reg, readReg r t = resetWord r) ∧ (∀ i : Fin 64, t.key[i] = 0) ∧
  t.inflight = false ∧ t.cur = none ∧ irq t = false

/-- STATUS.ERRCODE of an error code (60_exceptions.md R141). -/
def errNumber : ErrCode → Nat
  | .noError => 0
  | .illegal => 1
  | .decode => 2
  | .keyovf => 3
  | .keylen => 4
  | .keystate => 5
  | .div0 => 6
  | .range => 7

/-- B32STAT.STATE of a decoder state (10_state.md R26). -/
def stateNumber : B32State → Nat
  | .idle => 0
  | .data => 1
  | .pad => 2
  | .ended => 3
  | .done => 4
  | .err => 5

/-- What each offset of 10_state.md R18 reads below the key buffer: the row's offset and the word, a field
narrower than 32 bits zero-extended and reserved bits 0. -/
def registerTable (s : State) : List (Nat × Word) :=
  [(0x000, 0x50434F52), (0x004, 0x00010000),
   (0x008, BitVec.ofNat 32 s.ie.toNat),
   (0x00C, BitVec.ofNat 32
     (s.inflight.toNat + 2 * s.done.toNat + 4 * (s.errcode != .noError).toNat + 8 * s.valid.toNat +
       16 * s.wign.toNat + 256 * errNumber s.errcode)),
   (0x010, 0), (0x014, s.errinfo),
   (0x018, BitVec.ofNat 32 s.keylen.toNat),
   (0x01C, BitVec.ofNat 32
     (stateNumber s.b32stat.state + 16 * s.b32stat.qpos.toNat + 256 * s.b32stat.nbits.toNat +
       4096 * s.b32stat.dcnt.toNat + 65536 * s.b32stat.acc.toNat)),
   (0x020, s.b32cnt), (0x024, 30), (0x028, 4), (0x02C, s.factor)] ++
  [(0x030, s.uid.extractLsb' 0 32), (0x034, s.uid.extractLsb' 32 32),
   (0x038, s.time.extractLsb' 0 32), (0x03C, s.time.extractLsb' 32 32),
   (0x040, s.ctr.extractLsb' 0 32), (0x044, s.ctr.extractLsb' 32 32),
   (0x048, BitVec.ofNat 32 s.offset.toNat), (0x04C, BitVec.ofNat 32 s.bincode.toNat),
   (0x050, BitVec.ofNat 32 s.otp.toNat), (0x054, s.x), (0x058, s.y), (0x05C, s.z)] ++
  [(0x060, s.origuid.extractLsb' 0 32), (0x064, s.origuid.extractLsb' 32 32),
   (0x068, BitVec.ofNat 32 (s.chkinfo.uidok.toNat + 2 * s.chkinfo.otpok.toNat + 4 * s.chkinfo.neg.toNat)),
   (0x070, s.a.extractLsb' 0 32), (0x074, s.a.extractLsb' 32 32),
   (0x078, s.b.extractLsb' 0 32), (0x07C, s.b.extractLsb' 32 32),
   (0x080, s.q.extractLsb' 0 32), (0x084, s.q.extractLsb' 32 32),
   (0x088, s.r.extractLsb' 0 32), (0x08C, s.r.extractLsb' 32 32)] ++
  [(0x090, s.digest.w0), (0x094, s.digest.w1), (0x098, s.digest.w2), (0x09C, s.digest.w3), (0x0A0, s.digest.w4)]

/-- The RW registers of R18, but for CTRL, which has a rule of its own. -/
def isRw (r : Reg) : Prop :=
  r ∈ ([.keylen, .factor, .uidLo, .uidHi, .timeLo, .timeHi, .ctrLo, .ctrHi, .x, .y, .z, .aLo, .aHi, .bLo, .bHi] :
    List Reg) ∨ ∃ k, r = .keybuf k

/-- The RO registers of R18, but for STATUS, which has a rule of its own. -/
def isRo (r : Reg) : Prop :=
  r ∈ ([.id, .version, .errinfo, .b32stat, .b32cnt, .step, .digits, .offset, .bincode, .otp, .origuidLo, .origuidHi,
    .chkinfo] ++ [.qLo, .qHi, .rLo, .rHi, .digest0, .digest1, .digest2, .digest3, .digest4] : List Reg)

/-- A legal command word (30_encoding.md R64). -/
def legalWord (w : Word) : Prop :=
  w.extractLsb' 16 16 = 0 ∧
  w.extractLsb' 0 8 ∈ ([0x00, 0x10, 0x11, 0x12, 0x20, 0x21, 0x22, 0x23, 0x30, 0x31, 0x32, 0x33] :
    List (BitVec 8)) ∧
  (w.extractLsb' 0 8 = 0x11 ∨ w.extractLsb' 8 8 = 0)

/-- An unmapped offset of the window (20_memory.md R50). -/
def unmapped (off : Nat) : Prop := off = 0x06C ∨ (0x0A4 ≤ off ∧ off ≤ 0x0FC) ∨ (0x140 ≤ off ∧ off ≤ 0xFFC)

/-- The state with an error recorded and nothing else changed (60_exceptions.md R143). -/
def erred (code : ErrCode) (info : Word) (s : State) : State :=
  { s with errcode := code, errinfo := info }

/-- The state after `fail(r)` of 41_base32.md R94. -/
def charFailed (reason : BitVec 4) (c : Byte) (s : State) : State :=
  { s with
    errcode := .decode
    errinfo := (s.b32cnt.setWidth 16 ++ (0 : BitVec 4) ++ reason ++ c : BitVec (16 + 4 + 4 + 8))
    b32stat := { s.b32stat with state := .err }
    b32cnt := s.b32cnt + 1 }

/-- The decoder accepts a key only in IDLE or DONE (42_otp_digest.md R112). -/
def keyStateOk (s : State) : Prop := s.b32stat.state = .idle ∨ s.b32stat.state = .done

/-- A key length that keyed commands accept (R112). -/
def keyLenOk (s : State) : Prop := 1 ≤ s.keylen.toNat ∧ s.keylen.toNat ≤ 64

/-- The fields fit their decimal widths (43_paycode_divider.md R127, R131). -/
def fieldsFit (s : State) : Prop := s.x.toNat ≤ 9999 ∧ s.y.toNat ≤ 99999999 ∧ s.z.toNat ≤ 9999

/-- The first KEYLEN key bytes read as one big-endian number. -/
def keyValue (s : State) : Nat :=
  (s.key.toList.take s.keylen.toNat).foldl (fun acc b => acc * 256 + b.toNat) 0

/-- Everything the packer has been fed, as one number: the emitted bytes, then the pending bits. -/
def fedValue (s : State) : Nat := keyValue s * 2 ^ s.b32stat.nbits.toNat + s.b32stat.acc.toNat

/-- How many bits that is. -/
def fedBits (s : State) : Nat := 8 * s.keylen.toNat + s.b32stat.nbits.toNat

/-- The RFC 4648 character of a symbol (41_base32.md R91). -/
def base32Char (v : Nat) : Byte := BitVec.ofNat 8 (if v < 26 then 0x41 + v else 0x32 + (v - 26))

/-- One quantum of RFC 4648 text for 1 to 5 bytes: 5 bits a symbol, most significant first, and `=`
for the rest (R95, R96). -/
def base32Quantum (bs : List Byte) : List Byte :=
  let n := bs.foldl (fun acc b => acc * 256 + b.toNat) 0 * 256 ^ (5 - bs.length)
  (List.range 8).map fun i =>
    if i < (8 * bs.length + 4) / 5 then base32Char (n / 32 ^ (7 - i) % 32) else 0x3D

/-- The RFC 4648 text of a byte string. -/
def base32Text : List Byte → List Byte
  | b0 :: b1 :: b2 :: b3 :: b4 :: rest => base32Quantum [b0, b1, b2, b3, b4] ++ base32Text rest
  | [] => []
  | tail => base32Quantum tail

/-- What a list of commands commits, one after another (40_command.md R77). -/
def execAll : List Instr → State → Result
  | [], s => .next s
  | i :: is, s =>
    match exec i s with
    | .next t => execAll is t
    | .fault f => .fault f
    | .refused r => .refused r

/-- The commands of `decode(text)` (30_encoding.md R67, LDKEY32). -/
def decodeText (text : List Byte) : List Instr := .b32rst :: text.map .b32ch ++ [.b32fin]

/-- Byte `i` of the key block K0 (42_otp_digest.md R113). -/
def keyBlockByte (s : State) (i : Fin 64) : Byte := if i.val < s.keylen.toNat then s.key[i] else 0

/-- One round of `compress` (42_otp_digest.md R111) on a to e: `fv` is f(t, b, c, d), `kt` is K(t), `wt` is W[t]. -/
def sha1Step (fv kt wt : Word) (v : Digest) : Digest :=
  { w0 := v.w0.rotateLeft 5 + fv + v.w4 + kt + wt, w1 := v.w0, w2 := v.w1.rotateLeft 30, w3 := v.w2, w4 := v.w3 }

/-- CTR as a message, most significant byte first (20_memory.md R45). -/
def counterMessage (c : DWord) : List Byte :=
  [c.extractLsb' 56 8, c.extractLsb' 48 8, c.extractLsb' 40 8, c.extractLsb' 32 8,
   c.extractLsb' 24 8, c.extractLsb' 16 8, c.extractLsb' 8 8, c.extractLsb' 0 8]

/-- Two states whose keys agree below KEYLEN, with the same KEYLEN and decoder state. -/
def sameKey (s s' : State) : Prop :=
  s.b32stat.state = s'.b32stat.state ∧ s.keylen = s'.keylen ∧
  ∀ i : Fin 64, i.val < s.keylen.toNat → s.key[i] = s'.key[i]

/-- The exact, possibly negative, Y - FACTOR*X (43_paycode_divider.md R130). -/
def exactT (s : State) : Int := s.y.toNat - s.factor.toNat * s.x.toNat

end Sys2Proof.Spec

open Sys2Proof Sys2Proof.Machine Sys2Proof.Spec

/-! ### Encoding (30_encoding.md) -/

/-- Decode and encode agree, for every word and every command: a word decodes to a command exactly when
it is that command's word (R60, R63, R64). -/
def Obligations.DecodeEncodeAgree : Prop :=
  ∀ (w : Word) (i : Instr), decode w = .ok i ↔ w = encode i

/-- R64: the decoder accepts exactly the legal words, these are the words one row of the table matches,
and no two rows match one word. -/
def Obligations.LegalWordsAreTheTablesWords : Prop :=
  (∀ w : Word, (∃ i, decode w = .ok i) ↔ legalWord w) ∧
  (∀ w : Word, (∃ i, decode w = .ok i) ↔ ∃ row ∈ opcodeRows, w &&& row.mask = row.pattern) ∧
  (∀ (w : Word) (row row' : OpcodeRow), row ∈ opcodeRows → row' ∈ opcodeRows →
    w &&& row.mask = row.pattern → w &&& row'.mask = row'.pattern → row = row')

/-- B32CH with every character, and a few command words of 95_test_vectors.md section 6 and R63, written out bit by bit. -/
def Obligations.SampleWordsDecode : Prop :=
  (∀ c : Byte, decode ((0 : BitVec 16) ++ c ++ (0x11 : BitVec 8) : BitVec (16 + 8 + 8)) = .ok (.b32ch c)) ∧
  decode 0b00000000000000000000000000000000#32 = .ok .nop ∧
  decode 0b00000000000000000100011100010001#32 = .ok (.b32ch 0x47) ∧
  decode 0b00000000000000000000000000010010#32 = .ok .b32fin ∧
  decode 0b00000000000000000000000000100011#32 = .ok .otpgen ∧
  decode 0b00000000000000000000000000110001#32 = .ok .payenc ∧
  decode 0b00000000000000000100011100010000#32 = .error .strayArgument ∧
  decode 0b00000000000000010000000100010001#32 = .error .reservedBits

/-! ### Reset (70_reset_and_hazards.md) -/

/-- R161: reset, by the pin or by CTRL.SRST whatever BUSY is, gives every register its reset value and
abandons any command in flight. -/
def Obligations.ResetGivesEveryResetValue : Prop :=
  ∀ (s : State) (rest : List Turn),
    (s.schedule = .rst :: rest → ∃ t, step s = .next t ∧ isResetState t ∧ t.schedule = rest) ∧
    (∀ v : Word, v.getLsbD 1 = true → s.schedule = .host (.write 0x008 4 v) :: rest →
      ∃ t, step s = .next t ∧ isResetState t ∧ t.schedule = rest)

/-- The invariant holds at reset. The invariant is the model's reading of R26, R73, R22, R24, R122 and R130
(DEDUCED, log entry 14). -/
def Obligations.ResetSatisfiesInvariant : Prop := State.reset.Inv

/-! ### Invariant and safety -/

/-- Every step keeps the invariant (log entry 14), from every state that meets it and whatever the schedule
(log entry 1) brings next: a host access, a completion, a reset. -/
def Obligations.StepKeepsInvariant : Prop :=
  ∀ s t : State, s.Inv → step s = .next t → t.Inv

/-- R51, R140, R75: the only thing that stops the machine is a host access that the window refuses
(log entry 9); no command does. In a state that meets the invariant (log entry 14) the fault of log entry 7
cannot happen. -/
def Obligations.OnlyBadAccessesStop : Prop :=
  ∀ s : State, s.Inv →
    (∃ t, step s = .next t) ∨
    (∃ off size rest,
      (s.schedule = .host (.read off size) :: rest ∨ ∃ v, s.schedule = .host (.write off size v) :: rest) ∧
      accessedReg off size = none ∧ step s = .fault (.busError off size))

/-- R78, R172: under every schedule without a bad access, the machine comes to the end of the schedule
with no command in flight, and meets the invariant there. That a command in flight completes when the
schedule is empty is the model's form of weak fairness (log entries 1 and 11); that every turn, rst included,
belongs to the run is log entry 17. -/
def Obligations.EveryGoodScheduleRunsToItsEnd : Prop :=
  ∀ s : State, s.Inv → (∀ x ∈ s.schedule, x.valid = true) →
    ∃ t, Sys2Proof.core.run (s.schedule.length + 1) s = .next t ∧ t.runEnded = true ∧ t.Inv

/-- R78: no result depends on the delay. However often the host polls STATUS before the core's turn,
the run ends in the completed state, with the last poll showing its STATUS (log entries 1 and 2). -/
def Obligations.PollingDelayChangesNothing : Prop :=
  ∀ (n : Nat) (s t : State) (w : Word), s.inflight = true → s.cur = some w →
    execWord w { s with schedule := [] } = .next t →
    Sys2Proof.core.run (n + 2) { s with schedule := hostPoll n } =
      .next { t with
        inflight := false
        done := true
        rdata := some (statusWord { t with inflight := false, done := true }) }

/-! ### The bus (20_memory.md, 10_state.md) -/

/-- R49, R50, R51: inside the window, a host access ends with BusError exactly when it is not 4 bytes at
a mapped multiple of 4, and a bad read carries the data word 0. -/
def Obligations.BadAccessIsBusError : Prop :=
  ∀ (s : State) (off size : Nat) (v : Word) (rest : List Turn), off < 4096 →
    ((size ≠ 4 ∨ off % 4 ≠ 0 ∨ unmapped off) →
      (s.schedule = .host (.read off size) :: rest →
        step s = .fault (.busError off size) ∧ memRead off size s = .error 0) ∧
      (s.schedule = .host (.write off size v) :: rest → step s = .fault (.busError off size))) ∧
    ((size = 4 ∧ off % 4 = 0 ∧ ¬ unmapped off) →
      (s.schedule = .host (.read off size) :: rest → ∃ t, step s = .next t) ∧
      (s.schedule = .host (.write off size v) :: rest → ∃ t, step s = .next t))

/-- R44, R52: a read returns the register's current value (the model keeps it in `rdata`, log entry 2) and
changes no register, busy or idle. -/
def Obligations.ReadHasNoSideEffect : Prop :=
  ∀ (s : State) (r : Reg) (rest : List Turn), s.schedule = .host (.read r.byteOffset 4) :: rest →
    step s = .next { s with schedule := rest, rdata := some (readReg r s) } ∧
    readReg r { s with schedule := rest, rdata := some (readReg r s) } = readReg r s

/-- R18, with the fields of R21, R22, R25, R26, R34, R36, R38 and R39: what each mapped offset reads, in every
state. -/
def Obligations.RegisterLayout : Prop :=
  ∀ s : State,
    (∀ row ∈ registerTable s, memRead row.1 4 s = .data row.2) ∧
    ∀ k : Fin 16, memRead (0x100 + 4 * k.val) 4 s =
      .data (s.key[4 * k.val] ++ s.key[4 * k.val + 1] ++ s.key[4 * k.val + 2] ++ s.key[4 * k.val + 3])

/-- R19, R25, R38, R39: an idle host write of an RW register stores the word per the field width, and
every other register, and the hidden state, stays. -/
def Obligations.IdleWriteStoresOneRegister : Prop :=
  ∀ (s : State) (r : Reg) (v : Word) (rest : List Turn),
    s.inflight = false → isRw r → s.schedule = .host (.write r.byteOffset 4 v) :: rest →
    ∃ t, step s = .next t ∧
      readReg r t = (if r = .keylen then v &&& 0x7F else v) ∧
      (∀ r' : Reg, r' ≠ r → readReg r' t = readReg r' s) ∧
      t.inflight = false ∧ t.cur = s.cur ∧ t.schedule = rest ∧ t.rdata = s.rdata

/-- R19, R53: an idle host write of a read-only register does nothing, and sets no WIGN. -/
def Obligations.IdleWriteOfReadOnlyIsIgnored : Prop :=
  ∀ (s : State) (r : Reg) (v : Word) (rest : List Turn),
    s.inflight = false → isRo r → s.schedule = .host (.write r.byteOffset 4 v) :: rest →
    step s = .next { s with schedule := rest }

/-- R53: while BUSY, a write to anything but CTRL and STATUS changes nothing but WIGN, CMD included. -/
def Obligations.BusyWriteOnlySetsWign : Prop :=
  ∀ (s : State) (r : Reg) (v : Word) (rest : List Turn),
    s.inflight = true → r ≠ .ctrl → r ≠ .status →
    s.schedule = .host (.write r.byteOffset 4 v) :: rest →
    step s = .next { s with schedule := rest, wign := true }

/-- R21, R22, R53: CTRL and STATUS writes act whatever BUSY is; without SRST, CTRL stores IE and
nothing else, and STATUS clears DONE and WIGN where a 1 is written and nothing else. -/
def Obligations.ControlWritesAlwaysAct : Prop :=
  ∀ (s : State) (v : Word) (rest : List Turn),
    (v.getLsbD 1 = false → s.schedule = .host (.write 0x008 4 v) :: rest →
      step s = .next { s with schedule := rest, ie := v.getLsbD 0 }) ∧
    (s.schedule = .host (.write 0x00C 4 v) :: rest →
      step s = .next { s with
        schedule := rest
        done := s.done && !v.getLsbD 1
        wign := s.wign && !v.getLsbD 4 })

/-- R53, R55, R74: while a command is in flight no host access but a soft reset changes a register
other than CTRL and STATUS, and the command stays in flight. -/
def Obligations.OperandsAreFrozenInFlight : Prop :=
  ∀ (s t : State) (a : HostAccess) (rest : List Turn),
    s.inflight = true → s.schedule = .host a :: rest → step s = .next t →
    (∀ v : Word, a = .write 0x008 4 v → v.getLsbD 1 = false) →
    (∀ r : Reg, r ≠ .ctrl → r ≠ .status → readReg r t = readReg r s) ∧
    t.inflight = true ∧ t.cur = s.cur

/-- R39, R54, R67: WR64 writes a 64-bit value in two accesses, LO then HI, and between them the new LO
half stands with the old HI half. -/
def Obligations.PairWriteTakesTwoAccesses : Prop :=
  ∀ (s : State) (v : DWord), s.inflight = false →
    (∃ t, Sys2Proof.core.run 2 { s with schedule := hostWr64 uidPair v } = .next t ∧ t.uid = v) ∧
    (∃ t, Sys2Proof.core.run 2 { s with schedule := hostWr64 timePair v } = .next t ∧ t.time = v) ∧
    (∃ t, Sys2Proof.core.run 2 { s with schedule := hostWr64 ctrPair v } = .next t ∧ t.ctr = v) ∧
    (∃ t, Sys2Proof.core.run 2 { s with schedule := hostWr64 aPair v } = .next t ∧ t.a = v) ∧
    (∃ t, Sys2Proof.core.run 2 { s with schedule := hostWr64 bPair v } = .next t ∧ t.b = v) ∧
    (∃ t, Sys2Proof.core.run 1 { s with schedule := hostWr64 timePair v } = .next t ∧
      t.time.toNat = s.time.toNat / 2 ^ 32 * 2 ^ 32 + v.toNat % 2 ^ 32)

/-- R38, R47: a write of KEYBUFk puts its most significant byte at KEY[4k] and leaves the other words'
bytes alone. -/
def Obligations.KeyWordPacksBigEndian : Prop :=
  ∀ (s : State) (k : Fin 16) (v : Word) (rest : List Turn),
    s.inflight = false → s.schedule = .host (.write (0x100 + 4 * k.val) 4 v) :: rest →
    ∃ t, step s = .next t ∧ t = { s with schedule := rest, key := t.key } ∧
      (∀ (j : Fin 64) (i : Nat), i < 4 → j.val = 4 * k.val + i → t.key[j] = v.extractLsb' (24 - 8 * i) 8) ∧
      (∀ j : Fin 64, j.val / 4 ≠ k.val → t.key[j] = s.key[j])

/-! ### The command protocol (40_command.md, 60_exceptions.md) -/

/-- R73: an idle write of CMD issues the word, with the effects of issue and no other, and irq drops; a
busy one is ignored. -/
def Obligations.IssueLatchesTheWord : Prop :=
  ∀ (s : State) (w : Word) (rest : List Turn), s.schedule = .host (.write 0x010 4 w) :: rest →
    (s.inflight = false →
      step s = .next { s with
        schedule := rest, cur := some w, inflight := true, done := false
        errcode := .noError, valid := false, errinfo := 0 } ∧
      ∀ t, step s = .next t → irq t = false) ∧
    (s.inflight = true → step s = .next { s with schedule := rest, wign := true })

/-- R75: a step runs the decoded command. At the core's turn, with a word in flight that decodes to
`i`, the step is `exec i` followed by INFLIGHT <- 0 and DONE <- 1; exec always answers; and the turn
is enabled only when INFLIGHT = 1. That `exec` is the commit alone is log entry 10; that the core has its
turn when the schedule is empty is log entry 11. -/
def Obligations.StepRunsTheDecodedCommand : Prop :=
  (∀ (s t : State) (i : Instr) (w : Word) (rest : List Turn),
    s.inflight = true → s.cur = some w → decode w = .ok i → s.schedule = .core :: rest →
    exec i { s with schedule := rest } = .next t →
    step s = .next { t with inflight := false, done := true }) ∧
  (∀ (s t : State) (i : Instr) (w : Word),
    s.inflight = true → s.cur = some w → decode w = .ok i → s.schedule = [] →
    exec i s = .next t → step s = .next { t with inflight := false, done := true }) ∧
  (∀ (i : Instr) (s : State), ∃ t, exec i s = .next t) ∧
  (∀ (s : State) (rest : List Turn), s.inflight = false → s.schedule = .core :: rest →
    step s = .next { s with schedule := rest })

/-- R65: a word that is not legal is issued all the same and completes with E_ILLEGAL, the word as its
detail and no other effect. -/
def Obligations.IllegalWordCompletesWithError : Prop :=
  ∀ (s : State) (w : Word) (rest : List Turn), s.inflight = false →
    ¬ legalWord w →
    s.schedule = .host (.write 0x010 4 w) :: .core :: rest →
    ∃ t, step s = .next t ∧ t.inflight = true ∧ t.cur = some w ∧
      step t = .next { s with
        schedule := rest, cur := some w, inflight := false, done := true, valid := false
        errcode := .illegal, errinfo := w }

/-- R79: NOP has no effect but the common ones of issue and completion; a word with opcode 0x00 and
anything else set is no command. -/
def Obligations.NopOnlyCompletes : Prop :=
  encode .nop = 0x00000000 ∧ (∀ s : State, exec .nop s = .next s) ∧
  (∀ w : Word, w.extractLsb' 0 8 = 0 → w ≠ 0 → ¬ legalWord w ∧ ¬ ∃ i, decode w = .ok i) ∧
  ∀ (s : State) (rest : List Turn), s.inflight = false →
    s.schedule = .host (.write 0x010 4 0x00000000) :: .core :: rest →
    Sys2Proof.core.run 2 s = .next { s with
      schedule := rest, cur := some 0, done := true, errcode := .noError, valid := false, errinfo := 0 }

/-- R143: an error completion writes ERRCODE, ERRINFO and the family's error effects, and nothing else. -/
def Obligations.ErrorWritesOnlyItsRecord : Prop :=
  ∀ (i : Instr) (s t : State), s.errcode = .noError → exec i s = .next t → t.errcode ≠ .noError →
    t.errFlag = true ∧
    ((∃ c, i = .b32ch c) → t = { s with
      errcode := t.errcode, errinfo := t.errinfo
      b32stat := { s.b32stat with state := .err }, b32cnt := s.b32cnt + 1 }) ∧
    (i = .b32fin → t = { s with
      errcode := t.errcode, errinfo := t.errinfo, b32stat := { s.b32stat with state := .err } }) ∧
    ((∀ c, i ≠ .b32ch c) → i ≠ .b32fin → t = { s with errcode := t.errcode, errinfo := t.errinfo })

/-- R26, R32 to R37: which command may write which register. Everything else keeps its value. -/
def Obligations.EveryCommandStaysInItsWriteSet : Prop :=
  ∀ (i : Instr) (s t : State), exec i s = .next t →
    (t.x = s.x ∧ t.uid = s.uid ∧ t.time = s.time ∧ t.factor = s.factor ∧ t.a = s.a ∧ t.b = s.b ∧
      t.ie = s.ie ∧ t.done = s.done ∧ t.wign = s.wign ∧ t.inflight = s.inflight ∧ t.cur = s.cur ∧
      t.schedule = s.schedule ∧ t.rdata = s.rdata) ∧
    (i ≠ .div → t.q = s.q ∧ t.r = s.r) ∧
    (i ≠ .payenc → t.y = s.y ∧ t.z = s.z) ∧
    (i ≠ .paychk → t.chkinfo = s.chkinfo ∧ t.valid = s.valid) ∧
    (i ≠ .payrec → i ≠ .paychk → t.origuid = s.origuid) ∧
    (i ≠ .ctrgen → i ≠ .otpgen → i ≠ .paychk → t.ctr = s.ctr) ∧
    (i ≠ .hmac → i ≠ .otpgen → i ≠ .paychk → t.digest = s.digest) ∧
    (i ≠ .trunc → i ≠ .otpgen → i ≠ .paychk →
      t.offset = s.offset ∧ t.bincode = s.bincode ∧ t.otp = s.otp) ∧
    (i ≠ .b32rst → (∀ c, i ≠ .b32ch c) → i ≠ .b32fin → t.b32stat = s.b32stat) ∧
    (i ≠ .b32rst → (∀ c, i ≠ .b32ch c) → t.b32cnt = s.b32cnt ∧ t.keylen = s.keylen ∧ t.key = s.key)

/-- R148: irq is DONE and IE. Every completion, of a command or an illegal word, raises it exactly when
IE = 1; issue, a W1C write of DONE, masking and reset clear it. -/
def Obligations.IrqFollowsCompletion : Prop :=
  (∀ (s t : State) (rest : List Turn), s.inflight = true → s.schedule = .core :: rest →
    step s = .next t → irq t = s.ie ∧ t.done = true) ∧
  (∀ (s t : State) (w : Word) (rest : List Turn), s.inflight = false →
    s.schedule = .host (.write 0x010 4 w) :: rest → step s = .next t → irq t = false) ∧
  (∀ (s t : State) (v : Word) (rest : List Turn), v.getLsbD 1 = true →
    s.schedule = .host (.write 0x00C 4 v) :: rest → step s = .next t → irq t = false) ∧
  (∀ (s t : State) (rest : List Turn), s.schedule = .host (.write 0x008 4 0) :: rest →
    step s = .next t → irq t = false ∧ t.done = s.done) ∧
  (∀ (s t : State) (rest : List Turn), s.schedule = .rst :: rest → step s = .next t → irq t = false) ∧
  (∀ s : State, irq s = (s.done && s.ie))

/-! ### The base-32 decoder (41_base32.md) -/

/-- R91: the alphabet, in both cases, the pad character, the whitespace bytes, and nothing else. -/
def Obligations.CharacterMapperTable : Prop :=
  (∀ v : Fin 32, cls (base32Char v.val) = .sym (BitVec.ofNat 5 v.val)) ∧
  (∀ v : Fin 26, cls (BitVec.ofNat 8 (0x61 + v.val)) = .sym (BitVec.ofNat 5 v.val)) ∧
  (∀ c : Byte, cls c = .padc ↔ c = 0x3D) ∧
  (∀ c : Byte, cls c = .ws ↔ c ∈ ([0x09, 0x0A, 0x0B, 0x0C, 0x0D, 0x20] : List Byte)) ∧
  (∀ (c : Byte) (v : BitVec 5), cls c = .sym v →
    (∃ u : Fin 32, c = base32Char u.val) ∨ (∃ u : Fin 26, c = BitVec.ofNat 8 (0x61 + u.val)))

/-- R93: B32RST clears the decoder, B32CNT, KEYLEN and every key byte, in every state, and no other
command takes the decoder out of ERR. -/
def Obligations.B32rstClearsDecoderAndKey : Prop :=
  encode .b32rst = 0x00000010 ∧
  (∀ (i : Instr) (s t : State), s.b32stat.state = .err → exec i s = .next t →
    t.b32stat.state ≠ .err → i = .b32rst) ∧
  ∀ s : State, ∃ t, exec .b32rst s = .next t ∧
    t = { s with b32stat := t.b32stat, b32cnt := 0, keylen := 0, key := t.key } ∧
    readReg .b32stat t = 0 ∧ (∀ i : Fin 64, t.key[i] = 0) ∧ ∀ k : Fin 16, readReg (.keybuf k) t = 0

/-- R92, R94: before B32FIN and without an earlier error, whitespace changes nothing but B32CNT. -/
def Obligations.WhitespaceOnlyCounts : Prop :=
  ∀ (s : State) (c : Byte), c ∈ ([0x09, 0x0A, 0x0B, 0x0C, 0x0D, 0x20] : List Byte) →
    s.b32stat.state ≠ .err → s.b32stat.state ≠ .done →
    exec (.b32ch c) s = .next { s with b32cnt := s.b32cnt + 1 }

/-- R94, R95: a data symbol appends its 5 bits to everything fed so far: the number that KEY and ACC
hold becomes 32 times itself plus the symbol, one quantum position further, and no other key byte
and no other register changes. -/
def Obligations.SymbolAppendsFiveBits : Prop :=
  ∀ (s : State) (c : Byte) (v : BitVec 5), s.b32stat.Consistent → cls c = .sym v →
    (s.b32stat.state = .idle ∨ s.b32stat.state = .data) →
    (s.b32stat.nbits.toNat + 5 < 8 ∨ s.keylen.toNat < 64) →
    ∃ t, exec (.b32ch c) s = .next t ∧
      t = { s with b32stat := t.b32stat, b32cnt := s.b32cnt + 1, keylen := t.keylen, key := t.key } ∧
      fedValue t = 32 * fedValue s + v.toNat ∧ fedBits t = fedBits s + 5 ∧
      t.b32stat.nbits.toNat ≤ 7 ∧ t.b32stat.acc.toNat < 2 ^ t.b32stat.nbits.toNat ∧
      t.b32stat.state = .data ∧ t.b32stat.qpos.toNat = (s.b32stat.qpos.toNat + 1) % 8 ∧
      t.b32stat.dcnt = s.b32stat.dcnt ∧
      (∀ i : Fin 64, i.val ≠ s.keylen.toNat → t.key[i] = s.key[i]) ∧
      (s.b32stat.nbits.toNat + 5 < 8 → t.key = s.key)

/-- R95: a symbol that would complete a byte past KEY[63] ends in E_KEYOVF and writes no key byte. -/
def Obligations.FullKeyOverflows : Prop :=
  ∀ (s : State) (c : Byte) (v : BitVec 5), cls c = .sym v →
    (s.b32stat.state = .idle ∨ s.b32stat.state = .data) →
    8 ≤ s.b32stat.nbits.toNat + 5 → 64 ≤ s.keylen.toNat →
    exec (.b32ch c) s = .next { s with
      errcode := .keyovf
      errinfo := (s.b32cnt.setWidth 16 ++ (0 : BitVec 8) ++ c : BitVec (16 + 8 + 8))
      b32stat := { s.b32stat with state := .err }
      b32cnt := s.b32cnt + 1 }

/-- R96: `=` after 2, 4, 5 or 7 data symbols starts the padding and discards the pending bits, `=`
inside the padding continues it, and the eighth position ends the quantum. -/
def Obligations.PaddingFillsTheQuantum : Prop :=
  ∀ s : State,
    (s.b32stat.state = .data → s.b32stat.qpos ∈ ([2, 4, 5] : List (BitVec 3)) →
      exec (.b32ch 0x3D) s = .next { s with
        b32cnt := s.b32cnt + 1
        b32stat := { state := .pad, qpos := s.b32stat.qpos + 1, nbits := 0
                     dcnt := s.b32stat.qpos.setWidth 4, acc := 0 } }) ∧
    (s.b32stat.state = .data → s.b32stat.qpos = 7 →
      exec (.b32ch 0x3D) s = .next { s with
        b32cnt := s.b32cnt + 1
        b32stat := { state := .ended, qpos := 0, nbits := 0, dcnt := 7, acc := 0 } }) ∧
    (s.b32stat.state = .pad → s.b32stat.qpos ≠ 7 →
      exec (.b32ch 0x3D) s = .next { s with
        b32cnt := s.b32cnt + 1
        b32stat := { s.b32stat with qpos := s.b32stat.qpos + 1 } }) ∧
    (s.b32stat.state = .pad → s.b32stat.qpos = 7 →
      exec (.b32ch 0x3D) s = .next { s with
        b32cnt := s.b32cnt + 1
        b32stat := { s.b32stat with qpos := 0, state := .ended } })

/-- R94, R96, R97, R99, R144: every character that the decoder refuses, with its reason, in the order
of the checks. -/
def Obligations.RefusedCharacters : Prop :=
  ∀ (s : State) (c : Byte),
    (s.b32stat.state = .err → exec (.b32ch c) s = .next (charFailed 6 c s)) ∧
    (s.b32stat.state = .done → exec (.b32ch c) s = .next (charFailed 4 c s)) ∧
    (s.b32stat.state ≠ .err → s.b32stat.state ≠ .done →
      (cls c = .bad → exec (.b32ch c) s = .next (charFailed 1 c s)) ∧
      ((∃ v, cls c = .sym v) → (s.b32stat.state = .pad ∨ s.b32stat.state = .ended) →
        exec (.b32ch c) s = .next (charFailed 3 c s)) ∧
      (c = 0x3D → s.b32stat.state = .idle → exec (.b32ch c) s = .next (charFailed 2 c s)) ∧
      (c = 0x3D → s.b32stat.state = .ended → exec (.b32ch c) s = .next (charFailed 3 c s)) ∧
      (c = 0x3D → s.b32stat.state = .data → s.b32stat.qpos ∉ ([2, 4, 5, 7] : List (BitVec 3)) →
        exec (.b32ch c) s = .next (charFailed 2 c s)))

/-- R98: B32FIN accepts the text in IDLE, END, DONE and at a quantum boundary, and otherwise fails with
reason 5, or 6 when the decoder is in ERR already. -/
def Obligations.B32finAcceptsWholeQuanta : Prop :=
  encode .b32fin = 0x00000012 ∧
  ∀ s : State,
    ((s.b32stat.state = .idle ∨ s.b32stat.state = .ended ∨ s.b32stat.state = .done ∨
        (s.b32stat.state = .data ∧ s.b32stat.qpos = 0)) →
      exec .b32fin s = .next { s with b32stat := { s.b32stat with state := .done } }) ∧
    (((s.b32stat.state = .data ∧ s.b32stat.qpos ≠ 0) ∨ s.b32stat.state = .pad) →
      exec .b32fin s = .next { s with
        errcode := .decode
        errinfo := (s.b32cnt.setWidth 16 ++ (0 : BitVec 4) ++ (5 : BitVec 4) ++ (0 : BitVec 8) :
          BitVec (16 + 4 + 4 + 8))
        b32stat := { s.b32stat with state := .err } }) ∧
    (s.b32stat.state = .err →
      exec .b32fin s = .next { s with
        errcode := .decode
        errinfo := (s.b32cnt.setWidth 16 ++ (0 : BitVec 4) ++ (6 : BitVec 4) ++ (0 : BitVec 8) :
          BitVec (16 + 4 + 4 + 8)) })

/-- PAYCODE section 8, as R100 (the spec's own derivation from R91, R94, R95, R96 and R98) has it: decoding the RFC 4648 text of any byte string of up to 64 bytes gives the
bytes back, zero-filled, with KEYLEN its length and the decoder in DONE. -/
def Obligations.Base32DecodesEveryEncodedKey : Prop :=
  ∀ (s : State) (bs : List Byte), bs.length ≤ 64 →
    ∃ t, execAll (decodeText (base32Text bs)) s = .next t ∧
      t = { s with b32stat := t.b32stat, b32cnt := t.b32cnt, keylen := t.keylen, key := t.key } ∧
      t.b32stat.state = .done ∧ t.keylen.toNat = bs.length ∧
      t.key.toList = bs ++ List.replicate (64 - bs.length) 0

/-- R100 (the spec's own derivation): text that ends in DONE had no character outside the alphabet and, without its whitespace, a
length that is a multiple of 8. -/
def Obligations.AcceptedTextIsWholeQuanta : Prop :=
  ∀ (s t : State) (text : List Byte), execAll (decodeText text) s = .next t →
    t.b32stat.state = .done →
    (∀ c ∈ text, cls c ≠ .bad) ∧ (text.filter fun c => cls c ≠ .ws).length % 8 = 0

/-! ### The digest path (42_otp_digest.md) -/

/-- R116: CTRGEN writes TIME div 30 into CTR, and nothing else. -/
def Obligations.CtrgenDividesByThirty : Prop :=
  encode .ctrgen = 0x00000020 ∧
  ∀ s : State, ∃ t, exec .ctrgen s = .next t ∧ t = { s with ctr := t.ctr } ∧
    t.ctr.toNat = s.time.toNat / 30

/-- R112, R117 (with R113 to R115): HMAC refuses an unusable key, else writes the HMAC-SHA-1 of be64(CTR)
under the zero-filled key. -/
def Obligations.HmacWritesTheDigest : Prop :=
  encode .hmac = 0x00000021 ∧
  ∀ s : State,
    (keyStateOk s → keyLenOk s →
      ∃ t, exec .hmac s = .next t ∧ t = { s with digest := t.digest } ∧
        t.digest = sha1 ((List.ofFn fun i => keyBlockByte s i ^^^ 0x5C) ++
          (sha1 ((List.ofFn fun i => keyBlockByte s i ^^^ 0x36) ++ counterMessage s.ctr)).bytes)) ∧
    (¬ keyStateOk s → exec .hmac s = .next (erred .keystate (readReg .b32stat s &&& 7) s)) ∧
    (keyStateOk s → ¬ keyLenOk s → exec .hmac s = .next (erred .keylen (readReg .keylen s) s))

/-- R111: for a 64-byte key block and an 8-byte message the inner hash is two compressions, with the
stated second block, and the outer hash of a 20-byte digest likewise. -/
def Obligations.EachHashIsTwoBlocks : Prop :=
  ∀ (block msg inner : List Byte), block.length = 64 → msg.length = 8 → inner.length = 20 →
    sha1 (block ++ msg) = compress (compress sha1Iv block)
      (msg ++ [0x80] ++ List.replicate 47 0 ++ [0, 0, 0, 0, 0, 0, 0x02, 0x40]) ∧
    sha1 (block ++ inner) = compress (compress sha1Iv block)
      (inner ++ [0x80] ++ List.replicate 35 0 ++ [0, 0, 0, 0, 0, 0, 0x02, 0xA0])

/-- R110, R111: what SHA-1 computes on a block. There are a message schedule W and working variables V, W[0..15] the
block's big-endian words, W[16..79] by the recurrence, V 0 the chaining value, each of the 80 rounds with the f and
K of its range, and the result the word-by-word sum of the chaining value and V 80. These equations leave no
choice of W[0..79] and V 0..80. -/
def Obligations.CompressRunsEightyRounds : Prop :=
  sha1Iv = ⟨0x67452301, 0xEFCDAB89, 0x98BADCFE, 0x10325476, 0xC3D2E1F0⟩ ∧
  ∀ (h : Digest) (m : List Byte), m.length = 64 →
    ∃ (W : Nat → Word) (V : Nat → Digest),
      (∀ t, t ≤ 15 → W t = m.getD (4 * t) 0 ++ m.getD (4 * t + 1) 0 ++ m.getD (4 * t + 2) 0 ++ m.getD (4 * t + 3) 0) ∧
      (∀ t, 16 ≤ t → t ≤ 79 →
        W t = (W (t - 3) ^^^ W (t - 8) ^^^ W (t - 14) ^^^ W (t - 16)).rotateLeft 1) ∧
      V 0 = h ∧
      (∀ t, t ≤ 19 → V (t + 1) =
        sha1Step (((V t).w1 &&& (V t).w2) ||| (~~~(V t).w1 &&& (V t).w3)) 0x5A827999 (W t) (V t)) ∧
      (∀ t, 20 ≤ t → t ≤ 39 → V (t + 1) =
        sha1Step ((V t).w1 ^^^ (V t).w2 ^^^ (V t).w3) 0x6ED9EBA1 (W t) (V t)) ∧
      (∀ t, 40 ≤ t → t ≤ 59 → V (t + 1) =
        sha1Step (((V t).w1 &&& (V t).w2) ||| ((V t).w1 &&& (V t).w3) ||| ((V t).w2 &&& (V t).w3))
          0x8F1BBCDC (W t) (V t)) ∧
      (∀ t, 60 ≤ t → t ≤ 79 → V (t + 1) =
        sha1Step ((V t).w1 ^^^ (V t).w2 ^^^ (V t).w3) 0xCA62C1D6 (W t) (V t)) ∧
      compress h m =
        ⟨h.w0 + (V 80).w0, h.w1 + (V 80).w1, h.w2 + (V 80).w2, h.w3 + (V 80).w3, h.w4 + (V 80).w4⟩

/-- R113, R38: key bytes at KEYLEN and above do not enter the digest: two states that differ only there
get the same digest from HMAC. -/
def Obligations.HmacIgnoresBytesPastKeylen : Prop :=
  ∀ s s' t t' : State, sameKey s s' → keyStateOk s → keyLenOk s → s.ctr = s'.ctr →
    exec .hmac s = .next t → exec .hmac s' = .next t' → t.digest = t'.digest

/-- R118, R119 (with R33, R46): TRUNC takes the window that the low nibble of D[19] chooses, big-endian
and without its top bit, and reduces it modulo 10^4; the window lies in bytes 0 to 18. -/
def Obligations.TruncTakesTheWindow : Prop :=
  encode .trunc = 0x00000022 ∧
  ∀ s : State, ∃ t, exec .trunc s = .next t ∧
    t = { s with offset := t.offset, bincode := t.bincode, otp := t.otp } ∧
    t.offset.toNat = (s.digest.bytes.getD 19 0).toNat % 16 ∧
    t.offset.toNat + 3 ≤ 18 ∧
    t.bincode.toNat =
      (s.digest.bytes.getD t.offset.toNat 0).toNat % 128 * 2 ^ 24 +
      (s.digest.bytes.getD (t.offset.toNat + 1) 0).toNat * 2 ^ 16 +
      (s.digest.bytes.getD (t.offset.toNat + 2) 0).toNat * 2 ^ 8 +
      (s.digest.bytes.getD (t.offset.toNat + 3) 0).toNat ∧
    t.otp.toNat = t.bincode.toNat % 10000

/-- R33: D[j] is byte j of the digest string, and lies at bits [31-8(j mod 4) : 24-8(j mod 4)] of
DIGEST(j div 4). -/
def Obligations.DigestBytesAreBigEndian : Prop :=
  ∀ (d : Digest) (j : Fin 20),
    d.bytes.getD j.val 0 =
      (([d.w0, d.w1, d.w2, d.w3, d.w4] : List Word).getD (j.val / 4) 0).extractLsb' (24 - 8 * (j.val % 4)) 8 ∧
    d.byte j.val = d.bytes.getD j.val 0

/-- R120: OTPGEN is CTRGEN, then HMAC, then TRUNC, all or nothing: with a usable key it ends where the
three commands end, and otherwise it writes nothing but the error. -/
def Obligations.OtpgenIsTheThreeCommands : Prop :=
  encode .otpgen = 0x00000023 ∧
  ∀ s : State,
    (keyStateOk s → keyLenOk s →
      ∃ s1 s2 t, exec .ctrgen s = .next s1 ∧ exec .hmac s1 = .next s2 ∧ exec .trunc s2 = .next t ∧
        exec .otpgen s = .next t) ∧
    (¬ keyStateOk s → exec .otpgen s = .next (erred .keystate (readReg .b32stat s &&& 7) s)) ∧
    (keyStateOk s → ¬ keyLenOk s → exec .otpgen s = .next (erred .keylen (readReg .keylen s) s))

/-- R121 (the spec's own derivation from R116 to R118): the OTP depends on nothing but the key below KEYLEN
and the 30-second step. -/
def Obligations.OtpDependsOnKeyAndStepOnly : Prop :=
  ∀ s s' t t' : State, sameKey s s' → keyStateOk s → keyLenOk s →
    s.time.toNat / 30 = s'.time.toNat / 30 →
    exec .otpgen s = .next t → exec .otpgen s' = .next t' →
    t.ctr = t'.ctr ∧ t.digest = t'.digest ∧ t.offset = t'.offset ∧ t.bincode = t'.bincode ∧ t.otp = t'.otp

/-! ### The divider and the paycode arithmetic (43_paycode_divider.md) -/

/-- R126: DIV gives the unique quotient and remainder, and E_DIV0 on a zero divisor. -/
def Obligations.DivGivesQuotientAndRemainder : Prop :=
  encode .div = 0x00000030 ∧
  ∀ s : State,
    (s.b ≠ 0 → ∃ t, exec .div s = .next t ∧ t = { s with q := t.q, r := t.r } ∧
      s.a.toNat = t.q.toNat * s.b.toNat + t.r.toNat ∧ t.r.toNat < s.b.toNat) ∧
    (s.b = 0 → exec .div s = .next (erred .div0 0 s))

/-- R125: the restoring algorithm, one quotient bit per step, computes what the divider computes. -/
def Obligations.RestoringAlgorithmIsTheDivider : Prop :=
  ∀ a b : DWord, b ≠ 0 →
    restoringDivide a b = divu64 a b ∧
    (divu64 a b).quotient.toNat = a.toNat / b.toNat ∧ (divu64 a b).remainder.toNat = a.toNat % b.toNat

/-- R128: PAYENC computes y and z exactly, after its three checks in order. -/
def Obligations.PayencEncodesOrRefuses : Prop :=
  encode .payenc = 0x00000031 ∧
  ∀ s : State,
    (s.x = 0 → exec .payenc s = .next (erred .div0 0 s)) ∧
    (9999 < s.x.toNat → exec .payenc s = .next (erred .range 1 s)) ∧
    (1 ≤ s.x.toNat → s.x.toNat ≤ 9999 →
      99999999 < s.uid.toNat / s.x.toNat + s.factor.toNat * s.x.toNat →
      exec .payenc s = .next (erred .range 2 s)) ∧
    (1 ≤ s.x.toNat → s.x.toNat ≤ 9999 →
      s.uid.toNat / s.x.toNat + s.factor.toNat * s.x.toNat ≤ 99999999 →
      ∃ t, exec .payenc s = .next t ∧ t = { s with y := t.y, z := t.z } ∧
        t.y.toNat = s.uid.toNat / s.x.toNat + s.factor.toNat * s.x.toNat ∧
        t.z.toNat = s.uid.toNat % s.x.toNat)

/-- R130, R131: PAYREC checks the fields, refuses a negative difference, and else recovers the
identifier exactly. -/
def Obligations.PayrecRecoversOrRefuses : Prop :=
  encode .payrec = 0x00000032 ∧
  ∀ s : State,
    (9999 < s.x.toNat → exec .payrec s = .next (erred .range 1 s)) ∧
    (s.x.toNat ≤ 9999 → 99999999 < s.y.toNat → exec .payrec s = .next (erred .range 2 s)) ∧
    (s.x.toNat ≤ 9999 → s.y.toNat ≤ 99999999 → 9999 < s.z.toNat →
      exec .payrec s = .next (erred .range 3 s)) ∧
    (fieldsFit s → exactT s < 0 → exec .payrec s = .next (erred .range 4 s)) ∧
    (fieldsFit s → 0 ≤ exactT s →
      ∃ t, exec .payrec s = .next t ∧ t = { s with origuid := t.origuid } ∧
        (t.origuid.toNat : Int) = s.x.toNat * exactT s + s.z.toNat)

/-- R129 (the spec's own derivation from R128 and R130): whatever PAYENC encodes, PAYREC recovers. -/
def Obligations.PaycodeRoundTrip : Prop :=
  ∀ s t : State, exec .payenc s = .next t → t.errcode = .noError →
    exec .payrec t = .next { t with origuid := s.uid }

/-- R132, R133: PAYCHK checks fields then key; past the checks it writes the fresh OTP's registers as
OTPGEN does, the recovered identifier, CHKINFO, and VALID exactly when both comparisons hold. -/
def Obligations.PaychkValidates : Prop :=
  encode .paychk = 0x00000033 ∧
  ∀ s : State,
    (9999 < s.x.toNat → exec .paychk s = .next (erred .range 1 s)) ∧
    (s.x.toNat ≤ 9999 → 99999999 < s.y.toNat → exec .paychk s = .next (erred .range 2 s)) ∧
    (s.x.toNat ≤ 9999 → s.y.toNat ≤ 99999999 → 9999 < s.z.toNat →
      exec .paychk s = .next (erred .range 3 s)) ∧
    (fieldsFit s → ¬ keyStateOk s →
      exec .paychk s = .next (erred .keystate (readReg .b32stat s &&& 7) s)) ∧
    (fieldsFit s → keyStateOk s → ¬ keyLenOk s →
      exec .paychk s = .next (erred .keylen (readReg .keylen s) s)) ∧
    (fieldsFit s → keyStateOk s → keyLenOk s →
      ∃ g t, exec .otpgen s = .next g ∧ exec .paychk s = .next t ∧
        t = { g with origuid := t.origuid, chkinfo := t.chkinfo, valid := t.valid } ∧
        (exactT s < 0 → t.origuid = 0 ∧ t.chkinfo.neg = true ∧ t.chkinfo.uidok = false) ∧
        (0 ≤ exactT s → (t.origuid.toNat : Int) = s.x.toNat * exactT s + s.z.toNat ∧
          t.chkinfo.neg = false ∧ (t.chkinfo.uidok = true ↔ t.origuid = s.uid)) ∧
        (t.chkinfo.otpok = true ↔ g.otp.toNat = s.x.toNat) ∧
        (t.valid = true ↔ t.chkinfo.uidok = true ∧ t.chkinfo.otpok = true))

/-- R129, R132, R170: a paycode made by OTPGEN and PAYENC validates with PAYCHK at every time of the same
30-second step, for the UID it was made for. -/
def Obligations.FreshPaycodeValidates : Prop :=
  ∀ (s g e : State) (now : DWord),
    exec .otpgen s = .next g → g.errcode = .noError →
    exec .payenc { g with x := g.otp.setWidth 32 } = .next e → e.errcode = .noError →
    now.toNat / 30 = s.time.toNat / 30 →
    ∃ t, exec .paychk { e with time := now } = .next t ∧ t.errcode = .noError ∧ t.valid = true ∧
      t.chkinfo = { uidok := true, otpok := true, neg := false } ∧ t.origuid = s.uid

/-- R8, R132, R133, R170: no time step but the one of TIME is accepted. A paycode made by OTPGEN and
PAYENC is not valid at a time whose OTP differs, although its identifier still compares equal, and
that is a result, not an error. -/
def Obligations.LatePaycodeIsRefused : Prop :=
  ∀ (s g e l : State) (now : DWord),
    exec .otpgen s = .next g → g.errcode = .noError →
    exec .payenc { g with x := g.otp.setWidth 32 } = .next e → e.errcode = .noError →
    exec .otpgen { e with time := now } = .next l → l.otp ≠ g.otp →
    ∃ t, exec .paychk { e with time := now } = .next t ∧ t.errcode = .noError ∧ t.valid = false ∧
      t.chkinfo = { uidok := true, otpok := false, neg := false } ∧ t.origuid = s.uid
end

