-- ==== Sys2Proof/Laws/Encoding.lean ====
section
/-! SUPPORT. The fields of an encoded word. -/

namespace Sys2Proof

/-- The fields of a word built from fields are those fields (30_encoding.md R60). -/
@[simp] theorem cmdFields_cmdWord (f : Cmd32) : cmdFields (cmdWord f) = f := by
  obtain ⟨op, arg8, rsv⟩ := f
  simp only [cmdFields, cmdWord, Cmd32.mk.injEq]
  refine ⟨?_, ?_, ?_⟩ <;> ext i hi <;> simp <;> grind

/-- A word is built from its fields, so the three fields cover every bit (R60). -/
@[simp] theorem cmdWord_cmdFields (w : Word) : cmdWord (cmdFields w) = w := by
  simp only [cmdFields, cmdWord]
  ext i hi
  simp
  grind

/-- The fields of the word of a command. -/
theorem cmdFields_encode (i : Instr) :
    cmdFields (encode i) = { op := opcode i, arg8 := argument i, rsv := 0 } := by
  simp [encode]

end Sys2Proof
end

