-- ==== Sys2Proof/Laws/State.lean ====
section
/-! SUPPORT. One lemma per field per named update of State, true by rfl, so that no later proof
unfolds a record update. -/

namespace Sys2Proof.Machine

/-! ### State.withError -/

@[simp] theorem State.withError_ie (e : CmdError) (s : State) : (s.withError e).ie = s.ie := rfl
@[simp] theorem State.withError_done (e : CmdError) (s : State) : (s.withError e).done = s.done := rfl
@[simp] theorem State.withError_valid (e : CmdError) (s : State) : (s.withError e).valid = s.valid := rfl
@[simp] theorem State.withError_wign (e : CmdError) (s : State) : (s.withError e).wign = s.wign := rfl
@[simp] theorem State.withError_errcode (e : CmdError) (s : State) : (s.withError e).errcode = e.code := rfl
@[simp] theorem State.withError_errinfo (e : CmdError) (s : State) : (s.withError e).errinfo = e.info := rfl
@[simp] theorem State.withError_keylen (e : CmdError) (s : State) : (s.withError e).keylen = s.keylen := rfl
@[simp] theorem State.withError_b32stat (e : CmdError) (s : State) : (s.withError e).b32stat = s.b32stat := rfl
@[simp] theorem State.withError_b32cnt (e : CmdError) (s : State) : (s.withError e).b32cnt = s.b32cnt := rfl
@[simp] theorem State.withError_factor (e : CmdError) (s : State) : (s.withError e).factor = s.factor := rfl
@[simp] theorem State.withError_uid (e : CmdError) (s : State) : (s.withError e).uid = s.uid := rfl
@[simp] theorem State.withError_time (e : CmdError) (s : State) : (s.withError e).time = s.time := rfl
@[simp] theorem State.withError_ctr (e : CmdError) (s : State) : (s.withError e).ctr = s.ctr := rfl
@[simp] theorem State.withError_digest (e : CmdError) (s : State) : (s.withError e).digest = s.digest := rfl
@[simp] theorem State.withError_offset (e : CmdError) (s : State) : (s.withError e).offset = s.offset := rfl
@[simp] theorem State.withError_bincode (e : CmdError) (s : State) : (s.withError e).bincode = s.bincode := rfl
@[simp] theorem State.withError_otp (e : CmdError) (s : State) : (s.withError e).otp = s.otp := rfl
@[simp] theorem State.withError_x (e : CmdError) (s : State) : (s.withError e).x = s.x := rfl
@[simp] theorem State.withError_y (e : CmdError) (s : State) : (s.withError e).y = s.y := rfl
@[simp] theorem State.withError_z (e : CmdError) (s : State) : (s.withError e).z = s.z := rfl
@[simp] theorem State.withError_origuid (e : CmdError) (s : State) : (s.withError e).origuid = s.origuid := rfl
@[simp] theorem State.withError_chkinfo (e : CmdError) (s : State) : (s.withError e).chkinfo = s.chkinfo := rfl
@[simp] theorem State.withError_a (e : CmdError) (s : State) : (s.withError e).a = s.a := rfl
@[simp] theorem State.withError_b (e : CmdError) (s : State) : (s.withError e).b = s.b := rfl
@[simp] theorem State.withError_q (e : CmdError) (s : State) : (s.withError e).q = s.q := rfl
@[simp] theorem State.withError_r (e : CmdError) (s : State) : (s.withError e).r = s.r := rfl
@[simp] theorem State.withError_key (e : CmdError) (s : State) : (s.withError e).key = s.key := rfl
@[simp] theorem State.withError_inflight (e : CmdError) (s : State) : (s.withError e).inflight = s.inflight := rfl
@[simp] theorem State.withError_cur (e : CmdError) (s : State) : (s.withError e).cur = s.cur := rfl
@[simp] theorem State.withError_schedule (e : CmdError) (s : State) : (s.withError e).schedule = s.schedule := rfl
@[simp] theorem State.withError_rdata (e : CmdError) (s : State) : (s.withError e).rdata = s.rdata := rfl

/-! ### issue -/

@[simp] theorem issue_ie (w : Word) (s : State) : (issue w s).ie = s.ie := rfl
@[simp] theorem issue_done (w : Word) (s : State) : (issue w s).done = false := rfl
@[simp] theorem issue_valid (w : Word) (s : State) : (issue w s).valid = false := rfl
@[simp] theorem issue_wign (w : Word) (s : State) : (issue w s).wign = s.wign := rfl
@[simp] theorem issue_errcode (w : Word) (s : State) : (issue w s).errcode = .noError := rfl
@[simp] theorem issue_errinfo (w : Word) (s : State) : (issue w s).errinfo = 0 := rfl
@[simp] theorem issue_keylen (w : Word) (s : State) : (issue w s).keylen = s.keylen := rfl
@[simp] theorem issue_b32stat (w : Word) (s : State) : (issue w s).b32stat = s.b32stat := rfl
@[simp] theorem issue_b32cnt (w : Word) (s : State) : (issue w s).b32cnt = s.b32cnt := rfl
@[simp] theorem issue_factor (w : Word) (s : State) : (issue w s).factor = s.factor := rfl
@[simp] theorem issue_uid (w : Word) (s : State) : (issue w s).uid = s.uid := rfl
@[simp] theorem issue_time (w : Word) (s : State) : (issue w s).time = s.time := rfl
@[simp] theorem issue_ctr (w : Word) (s : State) : (issue w s).ctr = s.ctr := rfl
@[simp] theorem issue_digest (w : Word) (s : State) : (issue w s).digest = s.digest := rfl
@[simp] theorem issue_offset (w : Word) (s : State) : (issue w s).offset = s.offset := rfl
@[simp] theorem issue_bincode (w : Word) (s : State) : (issue w s).bincode = s.bincode := rfl
@[simp] theorem issue_otp (w : Word) (s : State) : (issue w s).otp = s.otp := rfl
@[simp] theorem issue_x (w : Word) (s : State) : (issue w s).x = s.x := rfl
@[simp] theorem issue_y (w : Word) (s : State) : (issue w s).y = s.y := rfl
@[simp] theorem issue_z (w : Word) (s : State) : (issue w s).z = s.z := rfl
@[simp] theorem issue_origuid (w : Word) (s : State) : (issue w s).origuid = s.origuid := rfl
@[simp] theorem issue_chkinfo (w : Word) (s : State) : (issue w s).chkinfo = s.chkinfo := rfl
@[simp] theorem issue_a (w : Word) (s : State) : (issue w s).a = s.a := rfl
@[simp] theorem issue_b (w : Word) (s : State) : (issue w s).b = s.b := rfl
@[simp] theorem issue_q (w : Word) (s : State) : (issue w s).q = s.q := rfl
@[simp] theorem issue_r (w : Word) (s : State) : (issue w s).r = s.r := rfl
@[simp] theorem issue_key (w : Word) (s : State) : (issue w s).key = s.key := rfl
@[simp] theorem issue_inflight (w : Word) (s : State) : (issue w s).inflight = true := rfl
@[simp] theorem issue_cur (w : Word) (s : State) : (issue w s).cur = some w := rfl
@[simp] theorem issue_schedule (w : Word) (s : State) : (issue w s).schedule = s.schedule := rfl
@[simp] theorem issue_rdata (w : Word) (s : State) : (issue w s).rdata = s.rdata := rfl

/-! ### State.finish -/

@[simp] theorem State.finish_ie (s : State) : (s.finish).ie = s.ie := rfl
@[simp] theorem State.finish_done (s : State) : (s.finish).done = true := rfl
@[simp] theorem State.finish_valid (s : State) : (s.finish).valid = s.valid := rfl
@[simp] theorem State.finish_wign (s : State) : (s.finish).wign = s.wign := rfl
@[simp] theorem State.finish_errcode (s : State) : (s.finish).errcode = s.errcode := rfl
@[simp] theorem State.finish_errinfo (s : State) : (s.finish).errinfo = s.errinfo := rfl
@[simp] theorem State.finish_keylen (s : State) : (s.finish).keylen = s.keylen := rfl
@[simp] theorem State.finish_b32stat (s : State) : (s.finish).b32stat = s.b32stat := rfl
@[simp] theorem State.finish_b32cnt (s : State) : (s.finish).b32cnt = s.b32cnt := rfl
@[simp] theorem State.finish_factor (s : State) : (s.finish).factor = s.factor := rfl
@[simp] theorem State.finish_uid (s : State) : (s.finish).uid = s.uid := rfl
@[simp] theorem State.finish_time (s : State) : (s.finish).time = s.time := rfl
@[simp] theorem State.finish_ctr (s : State) : (s.finish).ctr = s.ctr := rfl
@[simp] theorem State.finish_digest (s : State) : (s.finish).digest = s.digest := rfl
@[simp] theorem State.finish_offset (s : State) : (s.finish).offset = s.offset := rfl
@[simp] theorem State.finish_bincode (s : State) : (s.finish).bincode = s.bincode := rfl
@[simp] theorem State.finish_otp (s : State) : (s.finish).otp = s.otp := rfl
@[simp] theorem State.finish_x (s : State) : (s.finish).x = s.x := rfl
@[simp] theorem State.finish_y (s : State) : (s.finish).y = s.y := rfl
@[simp] theorem State.finish_z (s : State) : (s.finish).z = s.z := rfl
@[simp] theorem State.finish_origuid (s : State) : (s.finish).origuid = s.origuid := rfl
@[simp] theorem State.finish_chkinfo (s : State) : (s.finish).chkinfo = s.chkinfo := rfl
@[simp] theorem State.finish_a (s : State) : (s.finish).a = s.a := rfl
@[simp] theorem State.finish_b (s : State) : (s.finish).b = s.b := rfl
@[simp] theorem State.finish_q (s : State) : (s.finish).q = s.q := rfl
@[simp] theorem State.finish_r (s : State) : (s.finish).r = s.r := rfl
@[simp] theorem State.finish_key (s : State) : (s.finish).key = s.key := rfl
@[simp] theorem State.finish_inflight (s : State) : (s.finish).inflight = false := rfl
@[simp] theorem State.finish_cur (s : State) : (s.finish).cur = s.cur := rfl
@[simp] theorem State.finish_schedule (s : State) : (s.finish).schedule = s.schedule := rfl
@[simp] theorem State.finish_rdata (s : State) : (s.finish).rdata = s.rdata := rfl

/-! ### State.counted -/

@[simp] theorem State.counted_ie (s : State) : (s.counted).ie = s.ie := rfl
@[simp] theorem State.counted_done (s : State) : (s.counted).done = s.done := rfl
@[simp] theorem State.counted_valid (s : State) : (s.counted).valid = s.valid := rfl
@[simp] theorem State.counted_wign (s : State) : (s.counted).wign = s.wign := rfl
@[simp] theorem State.counted_errcode (s : State) : (s.counted).errcode = s.errcode := rfl
@[simp] theorem State.counted_errinfo (s : State) : (s.counted).errinfo = s.errinfo := rfl
@[simp] theorem State.counted_keylen (s : State) : (s.counted).keylen = s.keylen := rfl
@[simp] theorem State.counted_b32stat (s : State) : (s.counted).b32stat = s.b32stat := rfl
@[simp] theorem State.counted_b32cnt (s : State) : (s.counted).b32cnt = s.b32cnt + 1 := rfl
@[simp] theorem State.counted_factor (s : State) : (s.counted).factor = s.factor := rfl
@[simp] theorem State.counted_uid (s : State) : (s.counted).uid = s.uid := rfl
@[simp] theorem State.counted_time (s : State) : (s.counted).time = s.time := rfl
@[simp] theorem State.counted_ctr (s : State) : (s.counted).ctr = s.ctr := rfl
@[simp] theorem State.counted_digest (s : State) : (s.counted).digest = s.digest := rfl
@[simp] theorem State.counted_offset (s : State) : (s.counted).offset = s.offset := rfl
@[simp] theorem State.counted_bincode (s : State) : (s.counted).bincode = s.bincode := rfl
@[simp] theorem State.counted_otp (s : State) : (s.counted).otp = s.otp := rfl
@[simp] theorem State.counted_x (s : State) : (s.counted).x = s.x := rfl
@[simp] theorem State.counted_y (s : State) : (s.counted).y = s.y := rfl
@[simp] theorem State.counted_z (s : State) : (s.counted).z = s.z := rfl
@[simp] theorem State.counted_origuid (s : State) : (s.counted).origuid = s.origuid := rfl
@[simp] theorem State.counted_chkinfo (s : State) : (s.counted).chkinfo = s.chkinfo := rfl
@[simp] theorem State.counted_a (s : State) : (s.counted).a = s.a := rfl
@[simp] theorem State.counted_b (s : State) : (s.counted).b = s.b := rfl
@[simp] theorem State.counted_q (s : State) : (s.counted).q = s.q := rfl
@[simp] theorem State.counted_r (s : State) : (s.counted).r = s.r := rfl
@[simp] theorem State.counted_key (s : State) : (s.counted).key = s.key := rfl
@[simp] theorem State.counted_inflight (s : State) : (s.counted).inflight = s.inflight := rfl
@[simp] theorem State.counted_cur (s : State) : (s.counted).cur = s.cur := rfl
@[simp] theorem State.counted_schedule (s : State) : (s.counted).schedule = s.schedule := rfl
@[simp] theorem State.counted_rdata (s : State) : (s.counted).rdata = s.rdata := rfl

/-! ### State.decoderFailed -/

@[simp] theorem State.decoderFailed_ie (s : State) : (s.decoderFailed).ie = s.ie := rfl
@[simp] theorem State.decoderFailed_done (s : State) : (s.decoderFailed).done = s.done := rfl
@[simp] theorem State.decoderFailed_valid (s : State) : (s.decoderFailed).valid = s.valid := rfl
@[simp] theorem State.decoderFailed_wign (s : State) : (s.decoderFailed).wign = s.wign := rfl
@[simp] theorem State.decoderFailed_errcode (s : State) : (s.decoderFailed).errcode = s.errcode := rfl
@[simp] theorem State.decoderFailed_errinfo (s : State) : (s.decoderFailed).errinfo = s.errinfo := rfl
@[simp] theorem State.decoderFailed_keylen (s : State) : (s.decoderFailed).keylen = s.keylen := rfl
@[simp] theorem State.decoderFailed_b32stat (s : State) : (s.decoderFailed).b32stat = { s.b32stat with state := .err } := rfl
@[simp] theorem State.decoderFailed_b32cnt (s : State) : (s.decoderFailed).b32cnt = s.b32cnt := rfl
@[simp] theorem State.decoderFailed_factor (s : State) : (s.decoderFailed).factor = s.factor := rfl
@[simp] theorem State.decoderFailed_uid (s : State) : (s.decoderFailed).uid = s.uid := rfl
@[simp] theorem State.decoderFailed_time (s : State) : (s.decoderFailed).time = s.time := rfl
@[simp] theorem State.decoderFailed_ctr (s : State) : (s.decoderFailed).ctr = s.ctr := rfl
@[simp] theorem State.decoderFailed_digest (s : State) : (s.decoderFailed).digest = s.digest := rfl
@[simp] theorem State.decoderFailed_offset (s : State) : (s.decoderFailed).offset = s.offset := rfl
@[simp] theorem State.decoderFailed_bincode (s : State) : (s.decoderFailed).bincode = s.bincode := rfl
@[simp] theorem State.decoderFailed_otp (s : State) : (s.decoderFailed).otp = s.otp := rfl
@[simp] theorem State.decoderFailed_x (s : State) : (s.decoderFailed).x = s.x := rfl
@[simp] theorem State.decoderFailed_y (s : State) : (s.decoderFailed).y = s.y := rfl
@[simp] theorem State.decoderFailed_z (s : State) : (s.decoderFailed).z = s.z := rfl
@[simp] theorem State.decoderFailed_origuid (s : State) : (s.decoderFailed).origuid = s.origuid := rfl
@[simp] theorem State.decoderFailed_chkinfo (s : State) : (s.decoderFailed).chkinfo = s.chkinfo := rfl
@[simp] theorem State.decoderFailed_a (s : State) : (s.decoderFailed).a = s.a := rfl
@[simp] theorem State.decoderFailed_b (s : State) : (s.decoderFailed).b = s.b := rfl
@[simp] theorem State.decoderFailed_q (s : State) : (s.decoderFailed).q = s.q := rfl
@[simp] theorem State.decoderFailed_r (s : State) : (s.decoderFailed).r = s.r := rfl
@[simp] theorem State.decoderFailed_key (s : State) : (s.decoderFailed).key = s.key := rfl
@[simp] theorem State.decoderFailed_inflight (s : State) : (s.decoderFailed).inflight = s.inflight := rfl
@[simp] theorem State.decoderFailed_cur (s : State) : (s.decoderFailed).cur = s.cur := rfl
@[simp] theorem State.decoderFailed_schedule (s : State) : (s.decoderFailed).schedule = s.schedule := rfl
@[simp] theorem State.decoderFailed_rdata (s : State) : (s.decoderFailed).rdata = s.rdata := rfl

/-! ### State.withTruncated -/

@[simp] theorem State.withTruncated_ie (t : Truncated) (s : State) : (s.withTruncated t).ie = s.ie := rfl
@[simp] theorem State.withTruncated_done (t : Truncated) (s : State) : (s.withTruncated t).done = s.done := rfl
@[simp] theorem State.withTruncated_valid (t : Truncated) (s : State) : (s.withTruncated t).valid = s.valid := rfl
@[simp] theorem State.withTruncated_wign (t : Truncated) (s : State) : (s.withTruncated t).wign = s.wign := rfl
@[simp] theorem State.withTruncated_errcode (t : Truncated) (s : State) : (s.withTruncated t).errcode = s.errcode := rfl
@[simp] theorem State.withTruncated_errinfo (t : Truncated) (s : State) : (s.withTruncated t).errinfo = s.errinfo := rfl
@[simp] theorem State.withTruncated_keylen (t : Truncated) (s : State) : (s.withTruncated t).keylen = s.keylen := rfl
@[simp] theorem State.withTruncated_b32stat (t : Truncated) (s : State) : (s.withTruncated t).b32stat = s.b32stat := rfl
@[simp] theorem State.withTruncated_b32cnt (t : Truncated) (s : State) : (s.withTruncated t).b32cnt = s.b32cnt := rfl
@[simp] theorem State.withTruncated_factor (t : Truncated) (s : State) : (s.withTruncated t).factor = s.factor := rfl
@[simp] theorem State.withTruncated_uid (t : Truncated) (s : State) : (s.withTruncated t).uid = s.uid := rfl
@[simp] theorem State.withTruncated_time (t : Truncated) (s : State) : (s.withTruncated t).time = s.time := rfl
@[simp] theorem State.withTruncated_ctr (t : Truncated) (s : State) : (s.withTruncated t).ctr = s.ctr := rfl
@[simp] theorem State.withTruncated_digest (t : Truncated) (s : State) : (s.withTruncated t).digest = s.digest := rfl
@[simp] theorem State.withTruncated_offset (t : Truncated) (s : State) : (s.withTruncated t).offset = t.off := rfl
@[simp] theorem State.withTruncated_bincode (t : Truncated) (s : State) : (s.withTruncated t).bincode = t.number := rfl
@[simp] theorem State.withTruncated_otp (t : Truncated) (s : State) : (s.withTruncated t).otp = t.otp := rfl
@[simp] theorem State.withTruncated_x (t : Truncated) (s : State) : (s.withTruncated t).x = s.x := rfl
@[simp] theorem State.withTruncated_y (t : Truncated) (s : State) : (s.withTruncated t).y = s.y := rfl
@[simp] theorem State.withTruncated_z (t : Truncated) (s : State) : (s.withTruncated t).z = s.z := rfl
@[simp] theorem State.withTruncated_origuid (t : Truncated) (s : State) : (s.withTruncated t).origuid = s.origuid := rfl
@[simp] theorem State.withTruncated_chkinfo (t : Truncated) (s : State) : (s.withTruncated t).chkinfo = s.chkinfo := rfl
@[simp] theorem State.withTruncated_a (t : Truncated) (s : State) : (s.withTruncated t).a = s.a := rfl
@[simp] theorem State.withTruncated_b (t : Truncated) (s : State) : (s.withTruncated t).b = s.b := rfl
@[simp] theorem State.withTruncated_q (t : Truncated) (s : State) : (s.withTruncated t).q = s.q := rfl
@[simp] theorem State.withTruncated_r (t : Truncated) (s : State) : (s.withTruncated t).r = s.r := rfl
@[simp] theorem State.withTruncated_key (t : Truncated) (s : State) : (s.withTruncated t).key = s.key := rfl
@[simp] theorem State.withTruncated_inflight (t : Truncated) (s : State) : (s.withTruncated t).inflight = s.inflight := rfl
@[simp] theorem State.withTruncated_cur (t : Truncated) (s : State) : (s.withTruncated t).cur = s.cur := rfl
@[simp] theorem State.withTruncated_schedule (t : Truncated) (s : State) : (s.withTruncated t).schedule = s.schedule := rfl
@[simp] theorem State.withTruncated_rdata (t : Truncated) (s : State) : (s.withTruncated t).rdata = s.rdata := rfl

/-! ### State.withFreshOtp -/

@[simp] theorem State.withFreshOtp_ie (s : State) : (s.withFreshOtp).ie = s.ie := rfl
@[simp] theorem State.withFreshOtp_done (s : State) : (s.withFreshOtp).done = s.done := rfl
@[simp] theorem State.withFreshOtp_valid (s : State) : (s.withFreshOtp).valid = s.valid := rfl
@[simp] theorem State.withFreshOtp_wign (s : State) : (s.withFreshOtp).wign = s.wign := rfl
@[simp] theorem State.withFreshOtp_errcode (s : State) : (s.withFreshOtp).errcode = s.errcode := rfl
@[simp] theorem State.withFreshOtp_errinfo (s : State) : (s.withFreshOtp).errinfo = s.errinfo := rfl
@[simp] theorem State.withFreshOtp_keylen (s : State) : (s.withFreshOtp).keylen = s.keylen := rfl
@[simp] theorem State.withFreshOtp_b32stat (s : State) : (s.withFreshOtp).b32stat = s.b32stat := rfl
@[simp] theorem State.withFreshOtp_b32cnt (s : State) : (s.withFreshOtp).b32cnt = s.b32cnt := rfl
@[simp] theorem State.withFreshOtp_factor (s : State) : (s.withFreshOtp).factor = s.factor := rfl
@[simp] theorem State.withFreshOtp_uid (s : State) : (s.withFreshOtp).uid = s.uid := rfl
@[simp] theorem State.withFreshOtp_time (s : State) : (s.withFreshOtp).time = s.time := rfl
@[simp] theorem State.withFreshOtp_ctr (s : State) : (s.withFreshOtp).ctr = counterOf s.time := rfl
@[simp] theorem State.withFreshOtp_digest (s : State) : (s.withFreshOtp).digest = digestOf s (counterOf s.time) := rfl
@[simp] theorem State.withFreshOtp_offset (s : State) : (s.withFreshOtp).offset = (trunc (digestOf s (counterOf s.time))).off := rfl
@[simp] theorem State.withFreshOtp_bincode (s : State) : (s.withFreshOtp).bincode = (trunc (digestOf s (counterOf s.time))).number := rfl
@[simp] theorem State.withFreshOtp_otp (s : State) : (s.withFreshOtp).otp = (trunc (digestOf s (counterOf s.time))).otp := rfl
@[simp] theorem State.withFreshOtp_x (s : State) : (s.withFreshOtp).x = s.x := rfl
@[simp] theorem State.withFreshOtp_y (s : State) : (s.withFreshOtp).y = s.y := rfl
@[simp] theorem State.withFreshOtp_z (s : State) : (s.withFreshOtp).z = s.z := rfl
@[simp] theorem State.withFreshOtp_origuid (s : State) : (s.withFreshOtp).origuid = s.origuid := rfl
@[simp] theorem State.withFreshOtp_chkinfo (s : State) : (s.withFreshOtp).chkinfo = s.chkinfo := rfl
@[simp] theorem State.withFreshOtp_a (s : State) : (s.withFreshOtp).a = s.a := rfl
@[simp] theorem State.withFreshOtp_b (s : State) : (s.withFreshOtp).b = s.b := rfl
@[simp] theorem State.withFreshOtp_q (s : State) : (s.withFreshOtp).q = s.q := rfl
@[simp] theorem State.withFreshOtp_r (s : State) : (s.withFreshOtp).r = s.r := rfl
@[simp] theorem State.withFreshOtp_key (s : State) : (s.withFreshOtp).key = s.key := rfl
@[simp] theorem State.withFreshOtp_inflight (s : State) : (s.withFreshOtp).inflight = s.inflight := rfl
@[simp] theorem State.withFreshOtp_cur (s : State) : (s.withFreshOtp).cur = s.cur := rfl
@[simp] theorem State.withFreshOtp_schedule (s : State) : (s.withFreshOtp).schedule = s.schedule := rfl
@[simp] theorem State.withFreshOtp_rdata (s : State) : (s.withFreshOtp).rdata = s.rdata := rfl

/-! ### writeStatus -/

@[simp] theorem writeStatus_ie (v : Word) (s : State) : (writeStatus v s).ie = s.ie := rfl
@[simp] theorem writeStatus_done (v : Word) (s : State) : (writeStatus v s).done = if v.getLsbD 1 then false else s.done := rfl
@[simp] theorem writeStatus_valid (v : Word) (s : State) : (writeStatus v s).valid = s.valid := rfl
@[simp] theorem writeStatus_wign (v : Word) (s : State) : (writeStatus v s).wign = if v.getLsbD 4 then false else s.wign := rfl
@[simp] theorem writeStatus_errcode (v : Word) (s : State) : (writeStatus v s).errcode = s.errcode := rfl
@[simp] theorem writeStatus_errinfo (v : Word) (s : State) : (writeStatus v s).errinfo = s.errinfo := rfl
@[simp] theorem writeStatus_keylen (v : Word) (s : State) : (writeStatus v s).keylen = s.keylen := rfl
@[simp] theorem writeStatus_b32stat (v : Word) (s : State) : (writeStatus v s).b32stat = s.b32stat := rfl
@[simp] theorem writeStatus_b32cnt (v : Word) (s : State) : (writeStatus v s).b32cnt = s.b32cnt := rfl
@[simp] theorem writeStatus_factor (v : Word) (s : State) : (writeStatus v s).factor = s.factor := rfl
@[simp] theorem writeStatus_uid (v : Word) (s : State) : (writeStatus v s).uid = s.uid := rfl
@[simp] theorem writeStatus_time (v : Word) (s : State) : (writeStatus v s).time = s.time := rfl
@[simp] theorem writeStatus_ctr (v : Word) (s : State) : (writeStatus v s).ctr = s.ctr := rfl
@[simp] theorem writeStatus_digest (v : Word) (s : State) : (writeStatus v s).digest = s.digest := rfl
@[simp] theorem writeStatus_offset (v : Word) (s : State) : (writeStatus v s).offset = s.offset := rfl
@[simp] theorem writeStatus_bincode (v : Word) (s : State) : (writeStatus v s).bincode = s.bincode := rfl
@[simp] theorem writeStatus_otp (v : Word) (s : State) : (writeStatus v s).otp = s.otp := rfl
@[simp] theorem writeStatus_x (v : Word) (s : State) : (writeStatus v s).x = s.x := rfl
@[simp] theorem writeStatus_y (v : Word) (s : State) : (writeStatus v s).y = s.y := rfl
@[simp] theorem writeStatus_z (v : Word) (s : State) : (writeStatus v s).z = s.z := rfl
@[simp] theorem writeStatus_origuid (v : Word) (s : State) : (writeStatus v s).origuid = s.origuid := rfl
@[simp] theorem writeStatus_chkinfo (v : Word) (s : State) : (writeStatus v s).chkinfo = s.chkinfo := rfl
@[simp] theorem writeStatus_a (v : Word) (s : State) : (writeStatus v s).a = s.a := rfl
@[simp] theorem writeStatus_b (v : Word) (s : State) : (writeStatus v s).b = s.b := rfl
@[simp] theorem writeStatus_q (v : Word) (s : State) : (writeStatus v s).q = s.q := rfl
@[simp] theorem writeStatus_r (v : Word) (s : State) : (writeStatus v s).r = s.r := rfl
@[simp] theorem writeStatus_key (v : Word) (s : State) : (writeStatus v s).key = s.key := rfl
@[simp] theorem writeStatus_inflight (v : Word) (s : State) : (writeStatus v s).inflight = s.inflight := rfl
@[simp] theorem writeStatus_cur (v : Word) (s : State) : (writeStatus v s).cur = s.cur := rfl
@[simp] theorem writeStatus_schedule (v : Word) (s : State) : (writeStatus v s).schedule = s.schedule := rfl
@[simp] theorem writeStatus_rdata (v : Word) (s : State) : (writeStatus v s).rdata = s.rdata := rfl

/-! ### resetState -/

@[simp] theorem resetState_ie (s : State) : (resetState s).ie = State.reset.ie := rfl
@[simp] theorem resetState_done (s : State) : (resetState s).done = State.reset.done := rfl
@[simp] theorem resetState_valid (s : State) : (resetState s).valid = State.reset.valid := rfl
@[simp] theorem resetState_wign (s : State) : (resetState s).wign = State.reset.wign := rfl
@[simp] theorem resetState_errcode (s : State) : (resetState s).errcode = State.reset.errcode := rfl
@[simp] theorem resetState_errinfo (s : State) : (resetState s).errinfo = State.reset.errinfo := rfl
@[simp] theorem resetState_keylen (s : State) : (resetState s).keylen = State.reset.keylen := rfl
@[simp] theorem resetState_b32stat (s : State) : (resetState s).b32stat = State.reset.b32stat := rfl
@[simp] theorem resetState_b32cnt (s : State) : (resetState s).b32cnt = State.reset.b32cnt := rfl
@[simp] theorem resetState_factor (s : State) : (resetState s).factor = State.reset.factor := rfl
@[simp] theorem resetState_uid (s : State) : (resetState s).uid = State.reset.uid := rfl
@[simp] theorem resetState_time (s : State) : (resetState s).time = State.reset.time := rfl
@[simp] theorem resetState_ctr (s : State) : (resetState s).ctr = State.reset.ctr := rfl
@[simp] theorem resetState_digest (s : State) : (resetState s).digest = State.reset.digest := rfl
@[simp] theorem resetState_offset (s : State) : (resetState s).offset = State.reset.offset := rfl
@[simp] theorem resetState_bincode (s : State) : (resetState s).bincode = State.reset.bincode := rfl
@[simp] theorem resetState_otp (s : State) : (resetState s).otp = State.reset.otp := rfl
@[simp] theorem resetState_x (s : State) : (resetState s).x = State.reset.x := rfl
@[simp] theorem resetState_y (s : State) : (resetState s).y = State.reset.y := rfl
@[simp] theorem resetState_z (s : State) : (resetState s).z = State.reset.z := rfl
@[simp] theorem resetState_origuid (s : State) : (resetState s).origuid = State.reset.origuid := rfl
@[simp] theorem resetState_chkinfo (s : State) : (resetState s).chkinfo = State.reset.chkinfo := rfl
@[simp] theorem resetState_a (s : State) : (resetState s).a = State.reset.a := rfl
@[simp] theorem resetState_b (s : State) : (resetState s).b = State.reset.b := rfl
@[simp] theorem resetState_q (s : State) : (resetState s).q = State.reset.q := rfl
@[simp] theorem resetState_r (s : State) : (resetState s).r = State.reset.r := rfl
@[simp] theorem resetState_key (s : State) : (resetState s).key = State.reset.key := rfl
@[simp] theorem resetState_inflight (s : State) : (resetState s).inflight = State.reset.inflight := rfl
@[simp] theorem resetState_cur (s : State) : (resetState s).cur = State.reset.cur := rfl
@[simp] theorem resetState_schedule (s : State) : (resetState s).schedule = s.schedule := rfl
@[simp] theorem resetState_rdata (s : State) : (resetState s).rdata = s.rdata := rfl

end Sys2Proof.Machine
end

