-- ==== Sys2Proof/Laws/Ops.lean ====
section
/-! SUPPORT. What each shared operation can do, said once: checks, host accesses, turns and steps. -/

namespace Sys2Proof.Machine

/-! ### Checks -/

@[simp] theorem checked_none (s : State) (ok : Result) : checked none s ok = ok := rfl
@[simp] theorem checked_some (e : CmdError) (s : State) (ok : Result) :
    checked (some e) s ok = .next (s.withError e) := rfl
@[simp] theorem firstError_nil : firstError [] = none := rfl
@[simp] theorem firstError_some (e : CmdError) (l : List (Option CmdError)) :
    firstError (some e :: l) = some e := rfl
@[simp] theorem firstError_none (l : List (Option CmdError)) :
    firstError (none :: l) = firstError l := rfl
@[simp] theorem failIf_true (e : CmdError) : failIf true e = some e := rfl
@[simp] theorem failIf_false (e : CmdError) : failIf false e = none := rfl

/-- A checked command ends with its first error and nothing else written, or goes on. -/
theorem checked_cases (c : Option CmdError) (s : State) (ok : Result) :
    (∃ e, c = some e ∧ checked c s ok = .next (s.withError e)) ∨ (c = none ∧ checked c s ok = ok) := by
  cases c <;> simp

/-- An error of a list of checks is an error of one of them. -/
theorem firstError_mem {l : List (Option CmdError)} {e : CmdError} (h : firstError l = some e) :
    some e ∈ l := by
  induction l with
  | nil => simp at h
  | cons c l ih => cases c with
    | none => exact List.mem_cons_of_mem _ (ih h)
    | some e' => simp_all

/-- What a single check reports. -/
theorem failIf_eq_some {b : Bool} {e e' : CmdError} : failIf b e = some e' ↔ b = true ∧ e = e' := by
  cases b <;> simp

/-- A single check passes exactly when its condition does not hold. -/
@[simp] theorem failIf_eq_none {b : Bool} {e : CmdError} : failIf b e = none ↔ b = false := by
  cases b <;> simp

/-- A list of checks passes exactly when each passes. -/
theorem firstError_eq_none {l : List (Option CmdError)} :
    firstError l = none ↔ ∀ c ∈ l, c = none := by
  induction l with
  | nil => simp
  | cons c l ih => cases c <;> simp [ih]

/-! ### Completion -/

@[simp] theorem finishResult_next (s : State) : finishResult (.next s) = .next s.finish := rfl

/-- A completion that answers a next state finished what the command committed. -/
theorem finishResult_eq_next {o : Result} {t : State} :
    finishResult o = .next t ↔ ∃ u, o = .next u ∧ t = u.finish := by
  cases o <;> simp [finishResult, eq_comm]

/-! ### Halves of a 64-bit value (10_state.md R39) -/

@[simp] theorem lo_setLo (v : DWord) (w : Word) : lo (setLo v w) = w := by
  ext i h; simp [lo, setLo]; grind
@[simp] theorem hi_setLo (v : DWord) (w : Word) : hi (setLo v w) = hi v := by
  ext i h; simp [hi, setLo]; grind
@[simp] theorem hi_setHi (v : DWord) (w : Word) : hi (setHi v w) = w := by
  ext i h; simp [hi, setHi]; grind
@[simp] theorem lo_setHi (v : DWord) (w : Word) : lo (setHi v w) = lo v := by
  ext i h; simp [lo, setHi]; grind

/-- A 64-bit value is its two halves. -/
theorem hi_append_lo (v : DWord) : hi v ++ lo v = v := by
  ext i h
  simp [hi, lo]
  grind

/-! ### Packed bytes (20_memory.md R47) -/

@[simp] theorem packWord_wordBytes (w : Word) :
    packWord (wordByte w 0) (wordByte w 1) (wordByte w 2) (wordByte w 3) = w := by
  ext i h
  simp [packWord, wordByte]
  grind

@[simp] theorem wordByte_packWord (b0 b1 b2 b3 : Byte) :
    wordByte (packWord b0 b1 b2 b3) 0 = b0 ∧ wordByte (packWord b0 b1 b2 b3) 1 = b1 ∧
    wordByte (packWord b0 b1 b2 b3) 2 = b2 ∧ wordByte (packWord b0 b1 b2 b3) 3 = b3 := by
  refine ⟨?_, ?_, ?_, ?_⟩ <;> ext i h <;> simp [packWord, wordByte] <;> grind

/-- A key word written is the key word read (10_state.md R38). -/
@[simp] theorem keyWord_setKeyWord (key : Vector Byte 64) (k : Fin 16) (w : Word) :
    keyWord (setKeyWord key k w) k = w := by
  simp [keyWord, setKeyWord]

/-- Writing one key word leaves the others alone (R38). -/
theorem keyWord_setKeyWord_of_ne (key : Vector Byte 64) {k j : Fin 16} (w : Word) (h : j ≠ k) :
    keyWord (setKeyWord key k w) j = keyWord key j := by
  have h' : j.val ≠ k.val := fun e => h (Fin.ext e)
  simp only [keyWord, setKeyWord, Vector.getElem_set]
  congr 1 <;> (repeat' split) <;> first | omega | rfl

/-! ### The register map (10_state.md R18) -/

/-- Every register is reached at its own offset. -/
@[simp] theorem accessedReg_byteOffset (r : Reg) : accessedReg r.byteOffset 4 = some r := by
  cases r with
  | keybuf k => revert k; decide
  | _ => rfl

/-- A register is reached only by 4-byte accesses at its own offset. -/
theorem accessedReg_eq_some {off size : Nat} {r : Reg} :
    accessedReg off size = some r ↔ size = 4 ∧ off = r.byteOffset := by
  constructor
  · intro h
    simp only [accessedReg] at h
    split at h
    · rename_i hs
      have hr := List.find?_some h
      exact ⟨hs.1, (beq_iff_eq.mp hr).symm⟩
    · exact absurd h (by simp)
  · rintro ⟨rfl, rfl⟩
    exact accessedReg_byteOffset r

/-! ### Host accesses (20_memory.md R44, R51, R53) -/

/-- What a write of a register can do (R53). -/
theorem writeReg_cases (r : Reg) (v : Word) (s : State) :
    (r = .ctrl ∧ v.getLsbD 1 = true ∧ writeReg r v s = resetState s) ∨
    (r = .ctrl ∧ v.getLsbD 1 = false ∧ writeReg r v s = { s with ie := v.getLsbD 0 }) ∨
    (r = .status ∧ writeReg r v s = writeStatus v s) ∨
    (r ≠ .ctrl ∧ r ≠ .status ∧ s.inflight = true ∧ writeReg r v s = { s with wign := true }) ∨
    (r = .cmd ∧ s.inflight = false ∧ writeReg r v s = issue v s) ∨
    (r ≠ .ctrl ∧ r ≠ .status ∧ r ≠ .cmd ∧ s.inflight = false ∧ writeReg r v s = storeReg r v s) := by
  unfold writeReg writeCtrl
  by_cases h1 : r = .ctrl
  · subst h1
    cases h : v.getLsbD 1
    · exact .inr (.inl ⟨rfl, rfl, rfl⟩)
    · exact .inl ⟨rfl, rfl, rfl⟩
  · by_cases h2 : r = .status
    · exact .inr (.inr (.inl ⟨h2, by rw [if_neg h1, if_pos h2]⟩))
    · rw [if_neg h1, if_neg h2]
      cases h : s.inflight
      · by_cases h3 : r = .cmd
        · exact .inr (.inr (.inr (.inr (.inl ⟨h3, rfl, by simp [h3]⟩))))
        · exact .inr (.inr (.inr (.inr (.inr ⟨h1, h2, h3, rfl, by simp [h3]⟩))))
      · exact .inr (.inr (.inr (.inl ⟨h1, h2, rfl, rfl⟩)))

/-- What a host access that answers a next state did. -/
theorem hostAccess_cases {a : HostAccess} {s t : State} (h : hostAccess a s = .next t) :
    (∃ r : Reg, a = .read r.byteOffset 4 ∧ t = { s with rdata := some (readReg r s) }) ∨
    (∃ (r : Reg) (v : Word), a = .write r.byteOffset 4 v ∧ t = writeReg r v s) := by
  cases a with
  | read off size =>
    simp only [hostAccess, memRead] at h
    cases hr : accessedReg off size with
    | none => simp [hr] at h
    | some r =>
      obtain ⟨rfl, rfl⟩ := accessedReg_eq_some.mp hr
      simp only [hr, Host.Outcome.next.injEq] at h
      exact .inl ⟨r, rfl, h.symm⟩
  | write off size v =>
    simp only [hostAccess, memWrite] at h
    cases hr : accessedReg off size with
    | none => simp [hr] at h
    | some r =>
      obtain ⟨rfl, rfl⟩ := accessedReg_eq_some.mp hr
      simp only [hr, Option.map_some, Host.Outcome.next.injEq] at h
      exact .inr ⟨r, v, rfl, h.symm⟩

@[simp] theorem hostAccess_read (r : Reg) (s : State) :
    hostAccess (.read r.byteOffset 4) s = .next { s with rdata := some (readReg r s) } := by
  simp [hostAccess, memRead]

@[simp] theorem hostAccess_write (r : Reg) (v : Word) (s : State) :
    hostAccess (.write r.byteOffset 4 v) s = .next (writeReg r v s) := by
  simp [hostAccess, memWrite]

/-! ### Turns and steps (20_memory.md R56, 40_command.md R75) -/

theorem step_nil {s : State} (h : s.schedule = []) : step s = coreTurn s := by
  simp [step, nextTurn, h]

theorem step_cons {s : State} {x : Turn} {rest : List Turn} (h : s.schedule = x :: rest) :
    step s = runTurn x { s with schedule := rest } := by
  simp [step, nextTurn, h]

/-- What the core's turn did, if it answers a next state: nothing when idle, otherwise a completion. -/
theorem coreTurn_cases {s t : State} (h : coreTurn s = .next t) :
    (s.inflight = false ∧ t = s) ∨
    (s.inflight = true ∧ ∃ w u, s.cur = some w ∧ execWord w s = .next u ∧ t = u.finish) := by
  unfold coreTurn at h
  cases hi : s.inflight
  · simp [hi] at h; exact .inl ⟨rfl, h.symm⟩
  · simp only [hi, if_true, complete] at h
    cases hc : s.cur with
    | none => simp [hc] at h
    | some w =>
      obtain ⟨u, hu, rfl⟩ := finishResult_eq_next.mp (by simpa [hc] using h)
      exact .inr ⟨rfl, w, u, rfl, hu, rfl⟩

/-- What a step did, if it answers a next state. -/
theorem step_cases {s t : State} (h : step s = .next t) :
    (s.schedule = [] ∧ coreTurn s = .next t) ∨
    (∃ rest, s.schedule = .core :: rest ∧ coreTurn { s with schedule := rest } = .next t) ∨
    (∃ rest, s.schedule = .rst :: rest ∧ t = resetState { s with schedule := rest }) ∨
    (∃ a rest, s.schedule = .host a :: rest ∧ hostAccess a { s with schedule := rest } = .next t) := by
  cases hs : s.schedule with
  | nil => exact .inl ⟨rfl, step_nil hs ▸ h⟩
  | cons x rest =>
    rw [step_cons hs] at h
    cases x with
    | core => exact .inr (.inl ⟨rest, rfl, h⟩)
    | rst => exact .inr (.inr (.inl ⟨rest, rfl, (Host.Outcome.next.inj h).symm⟩))
    | host a => exact .inr (.inr (.inr ⟨a, rest, rfl, h⟩))

end Sys2Proof.Machine
end

