-- ==== Sys2Proof/Laws/Exec.lean ====
section
/-! SUPPORT. What the shared parts of the commands can do, said once: checked commands, the packer, the
characters and the end of text, the checks of keys and fields. -/

namespace Sys2Proof.Machine

/-- A checked command that goes on to `u` ended with its first error and nothing else written, or at `u`. -/
theorem checked_eq_next {c : Option CmdError} {s u t : State} (h : checked c s (.next u) = .next t) :
    (∃ e, c = some e ∧ t = s.withError e) ∨ (c = none ∧ t = u) := by
  cases c with
  | none => simp at h; exact .inr ⟨rfl, h.symm⟩
  | some e => simp at h; exact .inl ⟨e, rfl, h.symm⟩

/-- What `pack` (41_base32.md R95) can do when it does not overflow: hold the bits, or emit one byte. -/
theorem pack_cases {v : BitVec 5} {s t : State} (h : pack v s = some t) :
    (s.b32stat.nbits.toNat + 5 < 8 ∧ t = { s with b32stat := { s.b32stat with
      acc := BitVec.ofNat 7 (s.b32stat.acc.toNat * 2 ^ 5 + v.toNat)
      nbits := BitVec.ofNat 4 (s.b32stat.nbits.toNat + 5) } }) ∨
    (8 ≤ s.b32stat.nbits.toNat + 5 ∧ s.keylen.toNat < 64 ∧ t = { s with
      key := s.key.setIfInBounds s.keylen.toNat
        (BitVec.ofNat 8 ((s.b32stat.acc.toNat * 2 ^ 5 + v.toNat) / 2 ^ (s.b32stat.nbits.toNat + 5 - 8)))
      keylen := s.keylen + 1
      b32stat := { s.b32stat with
        acc := BitVec.ofNat 7
          ((s.b32stat.acc.toNat * 2 ^ 5 + v.toNat) % 2 ^ (s.b32stat.nbits.toNat + 5 - 8))
        nbits := BitVec.ofNat 4 (s.b32stat.nbits.toNat + 5 - 8) } }) := by
  unfold pack at h
  simp only at h
  split at h
  · rename_i h1; simp only [Option.some.injEq] at h; exact .inl ⟨h1, h.symm⟩
  · rename_i h1
    split at h
    · cases h
    · rename_i h2; simp only [Option.some.injEq] at h
      refine .inr ⟨by omega, ?_, h.symm⟩
      simp [Config.keyMax] at h2; exact h2

/-- What B32CH (R94) can do: an error with its effects, or one of the four accepted steps. -/
theorem execB32ch_cases {c : Byte} {s t : State} (h : execB32ch c s = .next t) :
    (∃ e : CmdError, e.code ≠ .noError ∧ t = s.counted.decoderFailed.withError e) ∨
    (s.b32stat.state ≠ .err ∧ s.b32stat.state ≠ .done ∧
      ((cls c = .ws ∧ t = s.counted) ∨
       (∃ v u, cls c = .sym v ∧ (s.b32stat.state = .idle ∨ s.b32stat.state = .data) ∧ pack v s = some u ∧
          t = { u.counted with b32stat := { u.b32stat with qpos := u.b32stat.qpos + 1, state := .data } }) ∨
       (cls c = .padc ∧ s.b32stat.state = .data ∧ padMayBegin s.b32stat.qpos = true ∧
          t = { s.counted with
            b32stat := padTaken { s.b32stat with acc := 0, nbits := 0 } (s.b32stat.qpos.setWidth 4) }) ∨
       (cls c = .padc ∧ s.b32stat.state = .pad ∧
          t = { s.counted with b32stat := padTaken s.b32stat s.b32stat.dcnt }))) := by
  have cf : ∀ r, charFails r c s = .next t →
      (∃ e : CmdError, e.code ≠ .noError ∧ t = s.counted.decoderFailed.withError e) := by
    intro r h; simp [charFails, raiseError] at h; exact ⟨_, by simp, h.symm⟩
  unfold execB32ch at h
  split at h
  · exact .inl (cf _ h)
  rename_i h1
  split at h
  · exact .inl (cf _ h)
  rename_i h2
  split at h
  · simp at h; exact .inr ⟨h1, h2, .inl ⟨‹_›, h.symm⟩⟩
  · exact .inl (cf _ h)
  · rename_i v hv
    unfold symbolFed at h
    split at h
    · exact .inl (cf _ h)
    rename_i h3
    split at h
    · simp [raiseError] at h; exact .inl ⟨_, by simp, h.symm⟩
    · rename_i u hu
      simp only [Host.Outcome.next.injEq] at h
      refine .inr ⟨h1, h2, .inr (.inl ⟨v, u, hv, ?_, hu, h.symm⟩)⟩
      cases hs : s.b32stat.state <;> simp_all
  · rename_i hp
    unfold padFed at h
    split at h
    · exact .inl (cf _ h)
    · exact .inl (cf _ h)
    · rename_i hd
      split at h
      · rename_i hb
        simp only [Host.Outcome.next.injEq] at h
        exact .inr ⟨h1, h2, .inr (.inr (.inl ⟨hp, hd, hb, h.symm⟩))⟩
      · exact .inl (cf _ h)
    · rename_i hd
      simp only [Host.Outcome.next.injEq] at h
      exact .inr ⟨h1, h2, .inr (.inr (.inr ⟨hp, hd, h.symm⟩))⟩
    · exact .inl (cf _ h)
    · exact .inl (cf _ h)

/-- The decoder's error effect changes nothing when the decoder is in ERR already. -/
theorem decoderFailed_of_err {s : State} (h : s.b32stat.state = .err) : s.decoderFailed = s := by
  have : ({ s.b32stat with state := .err } : B32Stat) = s.b32stat := by rw [← h]
  simp [State.decoderFailed, this]
/-- What B32FIN (R98) can do: an error with its effect, or DONE. -/
theorem execB32fin_cases {s t : State} (h : execB32fin s = .next t) :
    (∃ e : CmdError, e.code ≠ .noError ∧ t = s.decoderFailed.withError e) ∨
    ((s.b32stat.state = .idle ∨ s.b32stat.state = .ended ∨ s.b32stat.state = .done ∨
        (s.b32stat.state = .data ∧ s.b32stat.qpos = 0)) ∧
      t = { s with b32stat := { s.b32stat with state := .done } }) := by
  unfold execB32fin at h
  split at h
  · rename_i he
    simp only [raiseError, Host.Outcome.next.injEq] at h
    exact .inl ⟨⟨.decode, decodeInfo s.b32cnt 6 0⟩, by simp, by rw [decoderFailed_of_err he]; exact h.symm⟩
  · simp at h; exact .inr ⟨by simp_all, h.symm⟩
  · simp at h; exact .inr ⟨by simp_all, h.symm⟩
  · simp at h; exact .inr ⟨by simp_all, h.symm⟩
  · split at h
    · simp at h; exact .inr ⟨by simp_all, h.symm⟩
    · simp [raiseError] at h; exact .inl ⟨_, by simp, h.symm⟩
  · simp [raiseError] at h; exact .inl ⟨_, by simp, h.symm⟩

/-- An error of the key checks is an error (42_otp_digest.md R112). -/
theorem keycheck_code_ne {s : State} {e : CmdError} (h : keycheck s = some e) : e.code ≠ .noError := by
  have := firstError_mem h
  simp only [List.mem_cons, List.not_mem_nil, or_false] at this
  rcases this with h|h <;> (obtain ⟨_, rfl⟩ := failIf_eq_some.mp h.symm; simp)
/-- An error of the field checks is an error (43_paycode_divider.md R131). -/
theorem fieldcheck_code_ne {s : State} {e : CmdError} (h : fieldcheck s = some e) : e.code ≠ .noError := by
  have := firstError_mem h
  simp [rangeError] at this
  rcases this with h|h|h <;> (obtain ⟨_, rfl⟩ := failIf_eq_some.mp h.symm; simp)

/-! ### The divider (43_paycode_divider.md R125) -/

/-- The quotient fits its register. -/
@[simp] theorem divu64_quotient_toNat (a b : DWord) : (divu64 a b).quotient.toNat = a.toNat / b.toNat := by
  simp only [divu64, BitVec.toNat_ofNat]
  exact Nat.mod_eq_of_lt (Nat.lt_of_le_of_lt (Nat.div_le_self _ _) a.isLt)

/-- The remainder fits its register. -/
@[simp] theorem divu64_remainder_toNat (a b : DWord) : (divu64 a b).remainder.toNat = a.toNat % b.toNat := by
  simp only [divu64, BitVec.toNat_ofNat]
  exact Nat.mod_eq_of_lt (Nat.lt_of_le_of_lt (Nat.mod_le _ _) a.isLt)

end Sys2Proof.Machine
end

