-- ==== Sys2Proof/Laws/PerInstr.lean ====
section
/-! SUPPORT. Statements made per instruction. EncodesLegally: the word of a well-formed command is
legal (30_encoding.md R64) and its reserved field is 0. -/

namespace Sys2Proof.Laws.EncodesLegally

/-- The word of the command is legal, and the command is well formed. -/
def Statement (i : Instr) : Prop :=
  i.wellFormed = true ∧ (cmdFields (encode i)).legal = true ∧ (cmdFields (encode i)).rsv = 0

theorem nop : Statement .nop := by unfold Statement; decide
theorem b32rst : Statement .b32rst := by unfold Statement; decide
theorem b32ch (c : Byte) : Statement (.b32ch c) := by
  refine ⟨by simp [Instr.wellFormed]; omega, ?_, ?_⟩ <;>
    simp [cmdFields_encode, opcode, Cmd32.legal, Cmd32.rsvClear, Cmd32.opAssigned, Cmd32.argAllowed,
      assignedOps]
theorem b32fin : Statement .b32fin := by unfold Statement; decide
theorem ctrgen : Statement .ctrgen := by unfold Statement; decide
theorem hmac : Statement .hmac := by unfold Statement; decide
theorem trunc : Statement .trunc := by unfold Statement; decide
theorem otpgen : Statement .otpgen := by unfold Statement; decide
theorem div : Statement .div := by unfold Statement; decide
theorem payenc : Statement .payenc := by unfold Statement; decide
theorem payrec : Statement .payrec := by unfold Statement; decide
theorem paychk : Statement .paychk := by unfold Statement; decide

end Sys2Proof.Laws.EncodesLegally
end

