-- ==== Sys2Proof/Laws/Sha1.lean ====
section
/-! SUPPORT. What the parts of SHA-1 compute: the words of a block, the message schedule, the rounds
(42_otp_digest.md R111). -/

namespace Sys2Proof.Machine

/-! ### The words of a block -/

theorem bigEndianWords_length (m : List Byte) : (bigEndianWords m).length = m.length / 4 := by
  induction m using bigEndianWords.induct with
  | case1 b0 b1 b2 b3 rest ih => simp [bigEndianWords, ih]; omega
  | case2 m short =>
    have : m.length < 4 := by
      match m, short with
      | [], _ => simp
      | [_], _ => simp
      | [_, _], _ => simp
      | [_, _, _], _ => simp
      | b0 :: b1 :: b2 :: b3 :: rest, short => exact (short b0 b1 b2 b3 rest rfl).elim
    rw [bigEndianWords.eq_2 m short, List.length_nil]
    omega

/-- Word `t` packs bytes 4t to 4t+3, the first most significant. -/
theorem bigEndianWords_getD (t : Nat) (m : List Byte) (h : 4 * t + 3 < m.length) :
    (bigEndianWords m).getD t 0 =
      packWord (m.getD (4 * t) 0) (m.getD (4 * t + 1) 0) (m.getD (4 * t + 2) 0) (m.getD (4 * t + 3) 0) := by
  induction t generalizing m with
  | zero =>
    match m, h with
    | b0 :: b1 :: b2 :: b3 :: rest, _ => rfl
  | succ t ih =>
    match m, h with
    | b0 :: b1 :: b2 :: b3 :: rest, h =>
      have short : 4 * t + 3 < rest.length := by simp only [List.length_cons] at h; omega
      simpa [bigEndianWords, Nat.mul_succ] using ih rest short

/-! ### The message schedule, latest word first -/

theorem extendSchedule_length (n : Nat) (ws : List Word) :
    (extendSchedule n ws).length = n + ws.length := by
  induction n generalizing ws with
  | zero => simp [extendSchedule]
  | succ n ih => simp [extendSchedule, ih]; omega

/-- The words that were there stay, behind the new ones. -/
theorem extendSchedule_getD_add (n k : Nat) (ws : List Word) :
    (extendSchedule n ws).getD (n + k) 0 = ws.getD k 0 := by
  induction n generalizing ws k with
  | zero => simp [extendSchedule]
  | succ n ih => rw [extendSchedule, show n + 1 + k = n + (k + 1) by omega, ih]; rfl

/-- Each new word follows the recurrence of R111. -/
theorem extendSchedule_getD_lt (n i : Nat) (ws : List Word) (h : i < n) :
    (extendSchedule n ws).getD i 0 =
      rotl 1 ((extendSchedule n ws).getD (i + 3) 0 ^^^ (extendSchedule n ws).getD (i + 8) 0 ^^^
        (extendSchedule n ws).getD (i + 14) 0 ^^^ (extendSchedule n ws).getD (i + 16) 0) := by
  induction n generalizing ws with
  | zero => omega
  | succ n ih =>
    rw [extendSchedule]
    by_cases hi : i < n
    · exact ih _ hi
    · obtain rfl : i = n := by omega
      simp only [extendSchedule_getD_add, List.getD_cons_succ]
      exact (extendSchedule_getD_add i 0 _)

/-! ### The rounds -/

/-- Rounds over two runs of the schedule, one after the other. -/
theorem sha1Rounds_append (t : Nat) (xs ys : List Word) (v : Digest) :
    sha1Rounds t (xs ++ ys) v = sha1Rounds (t + xs.length) ys (sha1Rounds t xs v) := by
  induction xs generalizing t v with
  | nil => rfl
  | cons x xs ih =>
    simp only [List.cons_append, sha1Rounds, ih, List.length_cons]
    rw [show t + 1 + xs.length = t + (xs.length + 1) by omega]

/-- The rounds over one more word of the schedule. -/
theorem sha1Rounds_take_succ (ws : List Word) (t : Nat) (v : Digest) (h : t < ws.length) :
    sha1Rounds 0 (ws.take (t + 1)) v = sha1Round t (ws.getD t 0) (sha1Rounds 0 (ws.take t) v) := by
  have len : (ws.take t).length = t := List.length_take_of_le (Nat.le_of_lt h)
  rw [List.take_succ_eq_append_getElem h, sha1Rounds_append, len, Nat.zero_add,
    List.getD_eq_getElem _ _ h]
  rfl

end Sys2Proof.Machine
end

