-- ==== Sys2Proof/Laws/Words.lean ====
section
/-! SUPPORT. The packed words as numbers. -/

namespace Sys2Proof.Machine

/-- Two bit fields side by side, as a number. -/
theorem toNat_append_eq {m n : Nat} (u : BitVec m) (v : BitVec n) :
    (u ++ v).toNat = u.toNat * 2 ^ n + v.toNat := by
  rw [BitVec.toNat_append, ← Nat.shiftLeft_add_eq_or_of_lt v.isLt, Nat.shiftLeft_eq]

/-- B32STAT as a number (10_state.md R26). -/
theorem b32statWord_toNat (b : B32Stat) :
    (b32statWord b).toNat =
      b.state.toBits.toNat + 16 * b.qpos.toNat + 256 * b.nbits.toNat + 4096 * b.dcnt.toNat +
        65536 * b.acc.toNat := by
  show BitVec.toNat (w := 9 + 7 + 4 + 4 + 1 + 3 + 1 + 3) ((0 : BitVec 9) ++ b.acc ++ b.dcnt ++ b.nbits ++
    (0 : BitVec 1) ++ b.qpos ++ (0 : BitVec 1) ++ b.state.toBits) = _
  simp only [toNat_append_eq, show (0 : BitVec 9).toNat = 0 from rfl, show (0 : BitVec 1).toNat = 0 from rfl]
  omega

/-- A word packed from four bytes, as a number (20_memory.md R47). -/
theorem packWord_toNat (b0 b1 b2 b3 : Byte) :
    (packWord b0 b1 b2 b3).toNat =
      b0.toNat * 2 ^ 24 + b1.toNat * 2 ^ 16 + b2.toNat * 2 ^ 8 + b3.toNat := by
  show BitVec.toNat (w := 8 + 8 + 8 + 8) (b0 ++ b1 ++ b2 ++ b3) = _
  simp only [toNat_append_eq]
  omega

end Sys2Proof.Machine
end

