-- ==== Sys2Proof/Tests/Slice0.lean ====
section
/-! SUPPORT. Tests. Expected results are the spec's own (95_test_vectors.md, or the rule named), and
every statement with hypotheses has a witness that meets them. -/

namespace Sys2Proof.Tests

open Sys2Proof.Machine Sys2Proof.Spec

/-! ### Helpers -/

/-- A field of the next state of a command, a step or a run. -/
def got {α : Type} (f : State → α) : Result → Option α
  | .next s => some (f s)
  | .fault _ => none
  | .refused _ => none

/-- Reset with the UID of PAYCODE section 8 in place of the open P_UID_INIT. -/
def base : State := { State.reset with uid := 10203405609 }

/-- The bytes `"12345678901234567890"`. -/
def rfcKey : List Byte :=
  [0x31, 0x32, 0x33, 0x34, 0x35, 0x36, 0x37, 0x38, 0x39, 0x30] ++
  [0x31, 0x32, 0x33, 0x34, 0x35, 0x36, 0x37, 0x38, 0x39, 0x30]

/-- `base` with that key, 20 bytes long. -/
def keyed : State :=
  { base with keylen := 20, key := Vector.ofFn fun i => rfcKey.getD i.val 0 }

/-- A decoder in a given state, position and packer content. -/
def feeding (state : B32State) (qpos : BitVec 3) (nbits dcnt : BitVec 4) (acc : BitVec 7) : State :=
  { base with b32stat := { state := state, qpos := qpos, nbits := nbits, dcnt := dcnt, acc := acc } }

/-- A command in flight, with turns to come. -/
def flying (w : Word) (turns : List Turn) : State := { issue w base with schedule := turns }

/-- Paycode fields in place. -/
def fields (x y z : Word) (s : State) : State := { s with x := x, y := y, z := z }

/-! ### Which words are legal (30_encoding.md R64): one ill-formed word for each check -/

theorem test_wf_reserved : ({ op := 0x11, arg8 := 0x47, rsv := 1 } : Cmd32).rsvClear = false ∧
    ({ op := 0x11, arg8 := 0x47, rsv := 1 } : Cmd32).legal = false := by decide
theorem test_wf_opcode : ({ op := 0x34, arg8 := 0, rsv := 0 } : Cmd32).opAssigned = false ∧
    ({ op := 0x34, arg8 := 0, rsv := 0 } : Cmd32).legal = false := by decide
theorem test_wf_argument : ({ op := 0x10, arg8 := 0x47, rsv := 0 } : Cmd32).argAllowed = false ∧
    ({ op := 0x10, arg8 := 0x47, rsv := 0 } : Cmd32).legal = false := by decide
theorem test_wf_legal : ({ op := 0x11, arg8 := 0xFF, rsv := 0 } : Cmd32).legal = true := by decide

/-! ### Decoding, words written out bit by bit (R60, R63) -/

theorem test_decode_nop : decode 0b00000000000000000000000000000000 = .ok .nop := by decide
theorem test_decode_b32rst : decode 0b00000000000000000000000000010000 = .ok .b32rst := by decide
theorem test_decode_b32ch : decode 0b00000000000000000010001100010001 = .ok (.b32ch 0x23) := by decide
theorem test_decode_b32ch_ff : decode 0b00000000000000001111111100010001 = .ok (.b32ch 0xFF) := by decide
theorem test_decode_b32fin : decode 0b00000000000000000000000000010010 = .ok .b32fin := by decide
theorem test_decode_ctrgen : decode 0b00000000000000000000000000100000 = .ok .ctrgen := by decide
theorem test_decode_hmac : decode 0b00000000000000000000000000100001 = .ok .hmac := by decide
theorem test_decode_trunc : decode 0b00000000000000000000000000100010 = .ok .trunc := by decide
theorem test_decode_otpgen : decode 0b00000000000000000000000000100011 = .ok .otpgen := by decide
theorem test_decode_div : decode 0b00000000000000000000000000110000 = .ok .div := by decide
theorem test_decode_payenc : decode 0b00000000000000000000000000110001 = .ok .payenc := by decide
theorem test_decode_payrec : decode 0b00000000000000000000000000110010 = .ok .payrec := by decide
theorem test_decode_paychk : decode 0b00000000000000000000000000110011 = .ok .paychk := by decide
theorem test_decode_rejects : decode 0x00000013 = .error .unassignedOpcode ∧
    decode 0x00010000 = .error .reservedBits ∧ decode 0x00004710 = .error .strayArgument ∧
    decode 0x80000011 = .error .reservedBits ∧ decode 0x00000001 = .error .unassignedOpcode := by decide
theorem test_decode_table_word : decodeTableWord 32 0x4711 = some (.b32ch 0x47) ∧
    decodeTableWord 32 0x34 = none := by decide

/-! ### A word after reset: the first step runs it (R73, R75) -/

/-- STATUS after the very next step, for a word issued right after reset. -/
def statusAfter (w : Nat) : Option Word := got (readReg .status) (step (State.reset.withFetchWord 32 w))

/-- Every opcode, 95_test_vectors.md section 6: done without error where the operands after reset allow it. -/
theorem test_first_step_completes :
    [0x00, 0x10, 0x4711, 0x12, 0x20, 0x22, 0x32].map statusAfter = List.replicate 7 (some 0x2) := by decide
/-- KEYLEN is 0 after reset, so keyed commands end with E_KEYLEN (2.6); B and X are 0, so DIV and PAYENC end
with E_DIV0 (R126, R128); an illegal word ends with E_ILLEGAL (section 5). -/
theorem test_first_step_errors :
    [0x21, 0x23, 0x33, 0x30, 0x31, 0x34].map statusAfter =
      [some 0x406, some 0x406, some 0x406, some 0x606, some 0x606, some 0x106] := by decide

/-! ### The bus (20_memory.md R49 to R53) -/

theorem test_bus_map : memRead 0x000 4 base = .data 0x50434F52 ∧ memRead 0x02C 4 base = .data 5 ∧
    memRead 0x030 4 base = .data 0x602B9D29 ∧ memRead 0x034 4 base = .data 2 ∧
    memRead 0x06C 4 base = .error 0 ∧ memRead 0x0A4 4 base = .error 0 ∧
    memRead 0x13C 4 base = .data 0 ∧ memRead 0x140 4 base = .error 0 ∧ memRead 0xFFC 4 base = .error 0 ∧
    memRead 0x000 1 base = .error 0 ∧ memRead 0x002 4 base = .error 0 := by decide
/-- R38: KEYBUF0 packs KEY[0] in its top byte. -/
theorem test_bus_key_word : got (fun s => [s.key[0], s.key[1], s.key[2], s.key[3], s.key[4]])
    (hostAccess (.write 0x100 4 0x31323334) base) = some [0x31, 0x32, 0x33, 0x34, 0] := by decide
/-- R25: KEYLEN keeps bits [6:0]. -/
theorem test_bus_keylen_width : got (readReg .keylen) (hostAccess (.write 0x018 4 0xFFFFFFFF) base) = some 0x7F := by decide
/-- Program 3 and section 5: a write while busy is ignored and sets WIGN. -/
theorem test_bus_busy_write : got (fun s => (s.x, readReg .status s))
    (hostAccess (.write 0x054 4 5) (flying 0x23 [])) = some (0, 0x11) := by decide
/-- R163: SRST discards the IE bit of the same write and abandons the command. -/
theorem test_bus_soft_reset : got (fun s => (s.ie, s.inflight, s.factor))
    (hostAccess (.write 0x008 4 3) { flying 0x23 [] with factor := 9 }) = some (false, false, 5) := by decide

/-! ### Commands: the vectors of 95_test_vectors.md -/

/-- R79: after a failed PAYENC (STATUS 0x706), NOP leaves STATUS 0x2. -/
theorem test_nop_clears_error : got (readReg .status)
    (core.run 2 { base with errcode := .range, done := true, schedule := [hostCmd .nop, .core] }) = some 2 := by decide
/-- R93. -/
theorem test_b32rst_leaves_err : got (fun s => (readReg .b32stat s, readReg .keylen s))
    (exec .b32rst { feeding .err 3 7 0 0x37 with keylen := 3 }) = some (0, 0) := by decide
/-- 3.3: `G` from IDLE, then the row after `E`; 3.4: the first and the sixth `=` of `my======`. -/
theorem test_b32ch_feeds :
    got (readReg .b32stat) (exec (.b32ch 0x47) base) = some 0x60511 ∧
    got (fun s => (readReg .b32stat s, readReg (.keybuf 0) s))
      (exec (.b32ch 0x45) (feeding .data 1 5 0 0x06)) = some (0x221, 0x31000000) ∧
    got (readReg .b32stat) (exec (.b32ch 0x3D) (feeding .data 2 2 0 0)) = some 0x2032 ∧
    got (readReg .b32stat) (exec (.b32ch 0x3D) (feeding .pad 7 0 2 0)) = some 0x2003 := by decide
/-- 3.2: `M=` fails with reason 2 at index 1; 3.4: the key overflow. -/
theorem test_b32ch_errors :
    got (fun s => (readReg .errinfo s, readReg .b32stat s))
      (exec (.b32ch 0x3D) { feeding .data 1 5 0 0x0C with b32cnt := 1 }) = some (0x0001023D, 0xC0515) ∧
    got (fun s => (readReg .errinfo s, readReg .b32stat s, readReg .b32cnt s))
      (exec (.b32ch 0x41) { feeding .data 1 5 0 0 with keylen := 64, b32cnt := 1 }) =
        some (0x00010041, 0x515, 2) := by decide
/-- 3.2: `MZXW6` ends inside a quantum. -/
theorem test_b32fin_short : got (fun s => (readReg .errinfo s, readReg .b32stat s))
    (exec .b32fin { feeding .data 5 1 0 0 with b32cnt := 5 }) = some (0x00050500, 0x155) := by decide
/-- 3.4: END to DONE. -/
theorem test_b32fin_done : got (readReg .b32stat) (exec .b32fin (feeding .ended 0 0 2 0)) = some 0x2004 := by decide
/-- 2.4: 2^32 * 30 + 29, and 2^64 - 1. -/
theorem test_ctrgen_wide : got (·.ctr) (exec .ctrgen { base with time := 128849018909 }) = some 0x100000000 ∧
    got (·.ctr) (exec .ctrgen { base with time := 0xFFFFFFFFFFFFFFFF }) = some 0x0888888888888888 := by decide
/-- 2.1: SHA-1 of "abc". -/
theorem test_sha1_abc : sha1 [0x61, 0x62, 0x63] =
    { w0 := 0xA9993E36, w1 := 0x4706816A, w2 := 0xBA3E2571, w3 := 0x7850C26C, w4 := 0x9CD0D89D } := by
  decide +kernel
/-- 2.2: HMAC with CTR = 1. -/
theorem test_hmac_rfc : got (·.digest) (exec .hmac { keyed with ctr := 1 }) =
    some { w0 := 0x75A48A19, w1 := 0xD4CBE100, w2 := 0x644E8AC1, w3 := 0x397EEA74, w4 := 0x7A2D33AB } := by
  decide +kernel
/-- 2.6: a decode in progress. -/
theorem test_hmac_keystate : got (fun s => (s.errcode, s.errinfo)) (exec .hmac (feeding .data 1 5 0 0x0C)) =
    some (.keystate, 1) := by decide
/-- 2.5: only the first window byte loses its top bit. -/
theorem test_trunc_mask : got (fun s => (readReg .offset s, readReg .bincode s, readReg .otp s))
    (exec .trunc { base with digest := ⟨0x00010203, 0x04050607, 0x08090A0B, 0x0C0D0E0F, 0x8011121F⟩ }) =
      some (15, 0x0F801112, 1218) := by decide
theorem test_trunc_first_byte : got (fun s => (readReg .offset s, readReg .bincode s, readReg .otp s))
    (exec .trunc { base with digest := ⟨0, 0, 0, 0xFF, 0xAABBCC0F⟩ }) = some (15, 0x7FAABBCC, 5628) := by decide
/-- 2.4: TIME = 59. -/
theorem test_otpgen_59 : got (fun s => (s.ctr, s.offset, s.bincode, s.otp)) (exec .otpgen { keyed with time := 59 }) =
    some (1, 11, 1094287082, 7082) := by decide +kernel
/-- Section 4: A = 2^64 - 1, B = 2^32. -/
theorem test_div_wide : got (fun s => (s.q, s.r)) (exec .div { base with a := 0xFFFFFFFFFFFFFFFF, b := 0x100000000 }) =
    some (0xFFFFFFFF, 0xFFFFFFFF) := by decide
theorem test_div_zero : got (fun s => (s.errcode, s.errinfo, s.q)) (exec .div { base with a := 5 }) =
    some (.div0, 0, 0) := by decide
/-- S1: X = 1111; R128: x = 102 does not fit. -/
theorem test_payenc_1111 : got (fun s => (s.y, s.z)) (exec .payenc { base with x := 1111 }) =
    some (9189538, 496) := by decide
theorem test_payenc_102 : got (fun s => (s.errcode, s.errinfo, s.y)) (exec .payenc { base with x := 102 }) =
    some (.range, 2, 0) := by decide
/-- S1; R130: the largest fields. -/
theorem test_payrec_1111 : got (·.origuid) (exec .payrec (fields 1111 9189538 496 base)) = some 10203405609 := by decide
theorem test_payrec_largest : got (·.origuid) (exec .payrec (fields 9999 99999999 9999 base)) = some 999400099995 ∧
    got (·.errinfo) (exec .payrec (fields 10 49 3 base)) = some 4 := by decide
/-- Program 3: TIME 59 is valid. Section 4: a negative difference. -/
theorem test_paychk_valid : got (fun s => (s.valid, readReg .chkinfo s, s.origuid))
    (exec .paychk { fields 7082 1476161 7027 keyed with time := 59 }) = some (true, 3, 10203405609) := by
  decide +kernel
theorem test_paychk_negative : got (fun s => (s.valid, readReg .chkinfo s, s.origuid))
    (exec .paychk { fields 7082 10 0 keyed with time := 59 }) = some (false, 6, 0) := by decide +kernel

/-! ### Witnesses: the hypotheses of every statement are met, each clause at its boundary -/

/-- A state with turns to come. -/
def next (turns : List Turn) (s : State) : State := { s with schedule := turns }

theorem witness_LegalWordsAreTheTablesWords : ∃ (w : Word) (row row' : OpcodeRow),
    row ∈ opcodeRows ∧ row' ∈ opcodeRows ∧ w &&& row.mask = row.pattern ∧ w &&& row'.mask = row'.pattern :=
  ⟨0xFF11, ⟨"B32CH", 0xFFFF00FF, 0x00000011⟩, ⟨"B32CH", 0xFFFF00FF, 0x00000011⟩, by decide⟩

theorem witness_ResetGivesEveryResetValue :
    (next [.rst] (flying 0x23 [])).schedule = .rst :: [] ∧
    (2 : Word).getLsbD 1 = true ∧
    (next [.host (.write 0x008 4 2)] (flying 0x23 [])).schedule = .host (.write 0x008 4 2) :: [] := by decide

theorem witness_StepKeepsInvariant : (flying 0x23 [.core]).Inv ∧ ∃ t, step (flying 0x23 [.core]) = .next t :=
  ⟨⟨by decide, by decide, by decide, by decide⟩, ⟨_, rfl⟩⟩

theorem witness_OnlyBadAccessesStop : (flying 0x23 [.host (.read 0x06C 4)]).Inv ∧ (next [.core] keyed).Inv :=
  ⟨⟨by decide, by decide, by decide, by decide⟩, ⟨by decide, by decide, by decide, by decide⟩⟩

theorem witness_EveryGoodScheduleRunsToItsEnd :
    (next [hostWr .x 7082, hostCmd .payenc, hostRd .status, .core, hostCmd .otpgen, .rst] keyed).Inv ∧
    ∀ x ∈ (next [hostWr .x 7082, hostCmd .payenc, hostRd .status, .core, hostCmd .otpgen, .rst] keyed).schedule,
      x.valid = true :=
  ⟨⟨by decide, by decide, by decide, by decide⟩, by decide⟩

theorem witness_PollingDelayChangesNothing : ∃ t, (flying 0x12 []).inflight = true ∧
    (flying 0x12 []).cur = some 0x12 ∧ execWord 0x12 { flying 0x12 [] with schedule := [] } = .next t :=
  ⟨_, rfl, rfl, rfl⟩

theorem witness_BadAccessIsBusError_bad :
    (∀ size ∈ [0, 1, 2, 8], 0 < 4096 ∧ size ≠ 4) ∧ (∀ off ∈ [1, 2, 3, 4095], off < 4096 ∧ off % 4 ≠ 0) ∧
    ∀ off ∈ [0x06C, 0x0A4, 0x0FC, 0x140, 0xFFC], off < 4096 ∧ unmapped off := by
  unfold unmapped; decide
theorem witness_BadAccessIsBusError_good :
    (∀ off ∈ [0x000, 0x068, 0x070, 0x0A0, 0x100, 0x13C], off < 4096 ∧ 4 = 4 ∧ off % 4 = 0 ∧ ¬ unmapped off) ∧
    (next [.host (.read 0x06C 4)] base).schedule = .host (.read 0x06C 4) :: [] ∧
    (next [.host (.write 0x13C 4 1)] base).schedule = .host (.write 0x13C 4 1) :: [] := by
  unfold unmapped; decide

theorem witness_ReadHasNoSideEffect : (flying 0x23 [.host (.read Reg.otp.byteOffset 4)]).schedule =
    .host (.read Reg.otp.byteOffset 4) :: [] := rfl

theorem witness_IdleWriteStoresOneRegister : base.inflight = false ∧ isRw .keylen ∧ isRw (.keybuf 15) ∧
    (next [.host (.write (Reg.keybuf 15).byteOffset 4 9)] base).schedule =
      .host (.write (Reg.keybuf 15).byteOffset 4 9) :: [] :=
  ⟨rfl, .inl (by decide), .inr ⟨15, rfl⟩, rfl⟩

theorem witness_IdleWriteOfReadOnlyIsIgnored : base.inflight = false ∧ isRo .id ∧ isRo .digest4 ∧
    (next [.host (.write Reg.digest4.byteOffset 4 9)] base).schedule =
      .host (.write Reg.digest4.byteOffset 4 9) :: [] := by
  unfold isRo; decide

/-- The table's first and last rows. -/
theorem witness_RegisterLayout : (0x000, 0x50434F52) ∈ registerTable base ∧
    (0x0A0, base.digest.w4) ∈ registerTable base := by decide

theorem witness_BusyWriteOnlySetsWign : (flying 0x23 [.host (.write Reg.cmd.byteOffset 4 0)]).inflight = true ∧
    Reg.cmd ≠ .ctrl ∧ Reg.cmd ≠ .status ∧
    (flying 0x23 [.host (.write Reg.cmd.byteOffset 4 0)]).schedule =
      .host (.write Reg.cmd.byteOffset 4 0) :: [] := by decide

theorem witness_ControlWritesAlwaysAct : (1 : Word).getLsbD 1 = false ∧
    (flying 0x23 [.host (.write 0x008 4 1)]).schedule = .host (.write 0x008 4 1) :: [] ∧
    (flying 0x23 [.host (.write 0x00C 4 0x12)]).schedule = .host (.write 0x00C 4 0x12) :: [] := by decide

theorem witness_OperandsAreFrozenInFlight :
    (flying 0x23 [.host (.write 0x008 4 1)]).inflight = true ∧
    (∃ t, step (flying 0x23 [.host (.write 0x008 4 1)]) = .next t) ∧
    ∀ v : Word, HostAccess.write 0x008 4 1 = .write 0x008 4 v → v.getLsbD 1 = false :=
  ⟨rfl, ⟨_, rfl⟩, fun v h => by cases h; rfl⟩

theorem witness_PairWriteTakesTwoAccesses : base.inflight = false := rfl

theorem witness_KeyWordPacksBigEndian : base.inflight = false ∧
    (next [.host (.write (0x100 + 4 * (15 : Fin 16).val) 4 9)] base).schedule =
      .host (.write (0x100 + 4 * (15 : Fin 16).val) 4 9) :: [] ∧
    (3 < 4 ∧ (63 : Fin 64).val = 4 * (15 : Fin 16).val + 3) ∧ (59 : Fin 64).val / 4 ≠ (15 : Fin 16).val := by decide

theorem witness_IssueLatchesTheWord :
    ((next [.host (.write 0x010 4 0xFF)] base).schedule = .host (.write 0x010 4 0xFF) :: [] ∧
      (next [.host (.write 0x010 4 0xFF)] base).inflight = false) ∧
    (flying 0x23 [.host (.write 0x010 4 0xFF)]).inflight = true := by decide

theorem witness_StepRunsTheDecodedCommand :
    (flying 0x4711 [.core]).inflight = true ∧ (flying 0x4711 [.core]).cur = some 0x4711 ∧
    decode 0x4711 = .ok (.b32ch 0x47) ∧ (flying 0x4711 [.core]).schedule = .core :: [] ∧
    (∃ t, exec (.b32ch 0x47) { flying 0x4711 [.core] with schedule := [] } = .next t) ∧
    ((flying 0x4711 []).schedule = [] ∧ ∃ t, exec (.b32ch 0x47) (flying 0x4711 []) = .next t) ∧
    (next [.core] base).inflight = false ∧ (next [.core] base).schedule = .core :: [] :=
  ⟨rfl, rfl, rfl, rfl, ⟨_, rfl⟩, ⟨rfl, ⟨_, rfl⟩⟩, rfl, rfl⟩

theorem witness_IllegalWordCompletesWithError :
    (¬ legalWord 0x00000034 ∧ ¬ legalWord 0x000000FF ∧ ¬ legalWord 0x00000001) ∧
    ¬ legalWord 0x00000100 ∧ ¬ legalWord 0x00010111 ∧
    (next [.host (.write 0x010 4 0x34), .core] base).inflight = false ∧
    (next [.host (.write 0x010 4 0x34), .core] base).schedule = .host (.write 0x010 4 0x34) :: .core :: [] :=
  ⟨⟨fun h => absurd h.2.1 (by decide), fun h => absurd h.2.1 (by decide), fun h => absurd h.2.1 (by decide)⟩,
    fun h => absurd h.2.2 (by decide), fun h => absurd h.1 (by decide), rfl, rfl⟩

theorem witness_NopOnlyCompletes :
    ((0x00000100 : Word).extractLsb' 0 8 = 0 ∧ (0x00000100 : Word) ≠ 0) ∧
    (next [.host (.write 0x010 4 0x00000000), .core] base).inflight = false ∧
    (next [.host (.write 0x010 4 0x00000000), .core] base).schedule =
      .host (.write 0x010 4 0x00000000) :: .core :: [] := by decide

theorem witness_ErrorWritesOnlyItsRecord : base.errcode = .noError ∧
    (∃ t, exec .div base = .next t ∧ t.errcode ≠ .noError) ∧
    (∃ t, exec (.b32ch 0x30) base = .next t ∧ t.errcode ≠ .noError) ∧
    ∃ t, exec .b32fin (feeding .pad 7 0 2 0) = .next t ∧ t.errcode ≠ .noError :=
  ⟨rfl, ⟨_, rfl, by decide⟩, ⟨_, rfl, by decide⟩, ⟨_, rfl, by decide⟩⟩

theorem witness_EveryCommandStaysInItsWriteSet : ∃ t, exec .div { base with b := 7 } = .next t := ⟨_, rfl⟩

theorem witness_IrqFollowsCompletion :
    ((flying 0x34 [.core]).inflight = true ∧ ∃ t, step (flying 0x34 [.core]) = .next t) ∧
    (base.inflight = false ∧ ∃ t, step (next [.host (.write 0x010 4 0x12)] base) = .next t) ∧
    ((2 : Word).getLsbD 1 = true ∧ ∃ t, step (next [.host (.write 0x00C 4 2)] base) = .next t) ∧
    (∃ t, step (next [.host (.write 0x008 4 0)] base) = .next t) ∧ ∃ t, step (next [.rst] base) = .next t :=
  ⟨⟨rfl, ⟨_, rfl⟩⟩, ⟨rfl, ⟨_, rfl⟩⟩, ⟨rfl, ⟨_, rfl⟩⟩, ⟨_, rfl⟩, ⟨_, rfl⟩⟩

theorem witness_CharacterMapperTable : cls 0x5A = .sym 25 ∧ cls 0x7A = .sym 25 ∧ cls 0x32 = .sym 26 ∧
    cls 0x37 = .sym 31 := by decide

theorem witness_B32rstClearsDecoderAndKey : (feeding .err 3 7 0 0x37).b32stat.state = .err ∧
    ∃ t, exec .b32rst (feeding .err 3 7 0 0x37) = .next t ∧ t.b32stat.state ≠ .err :=
  ⟨rfl, ⟨_, rfl, by decide⟩⟩

theorem witness_WhitespaceOnlyCounts : (0x09 : Byte) ∈ ([0x09, 0x0A, 0x0B, 0x0C, 0x0D, 0x20] : List Byte) ∧
    (feeding .pad 7 0 2 0).b32stat.state ≠ .err ∧ (feeding .pad 7 0 2 0).b32stat.state ≠ .done := by decide

theorem witness_SymbolAppendsFiveBits :
    (base.b32stat.Consistent ∧ cls 0x41 = .sym 0 ∧ base.b32stat.state = .idle ∧ base.b32stat.nbits.toNat + 5 < 8) ∧
    ((feeding .data 3 7 0 0x7F).b32stat.Consistent ∧ cls 0x37 = .sym 31 ∧
      (feeding .data 3 7 0 0x7F).b32stat.state = .data ∧
      { feeding .data 3 7 0 0x7F with keylen := 63 }.keylen.toNat < 64) :=
  ⟨⟨by decide, by decide⟩, ⟨by decide, by decide⟩⟩

theorem witness_FullKeyOverflows : cls 0x41 = .sym 0 ∧ (feeding .data 7 3 0 0).b32stat.state = .data ∧
    8 ≤ (feeding .data 7 3 0 0).b32stat.nbits.toNat + 5 ∧
    64 ≤ { feeding .data 7 3 0 0 with keylen := 64 }.keylen.toNat := by decide

theorem witness_PaddingFillsTheQuantum :
    ((feeding .data 5 1 0 1).b32stat.state = .data ∧
      (feeding .data 5 1 0 1).b32stat.qpos ∈ ([2, 4, 5] : List (BitVec 3))) ∧
    ((feeding .data 7 3 0 1).b32stat.state = .data ∧ (feeding .data 7 3 0 1).b32stat.qpos = 7) ∧
    ((feeding .pad 6 0 2 0).b32stat.state = .pad ∧ (feeding .pad 6 0 2 0).b32stat.qpos ≠ 7) ∧
    ((feeding .pad 7 0 2 0).b32stat.state = .pad ∧ (feeding .pad 7 0 2 0).b32stat.qpos = 7) := by decide

theorem witness_RefusedCharacters :
    (feeding .err 1 5 0 0).b32stat.state = .err ∧ (feeding .done 0 0 0 0).b32stat.state = .done ∧
    (base.b32stat.state ≠ .err ∧ base.b32stat.state ≠ .done ∧ cls 0x00 = .bad ∧ cls 0x80 = .bad) ∧
    (cls 0x41 = .sym 0 ∧ (feeding .pad 3 0 2 0).b32stat.state = .pad ∧
      (feeding .ended 0 0 2 0).b32stat.state = .ended) ∧
    base.b32stat.state = .idle ∧ ((feeding .data 6 6 0 0).b32stat.state = .data ∧
      (feeding .data 6 6 0 0).b32stat.qpos ∉ ([2, 4, 5, 7] : List (BitVec 3))) := by decide

theorem witness_B32finAcceptsWholeQuanta :
    base.b32stat.state = .idle ∧ (feeding .ended 0 0 2 0).b32stat.state = .ended ∧
    (feeding .done 0 0 2 0).b32stat.state = .done ∧
    ((feeding .data 0 0 0 0).b32stat.state = .data ∧ (feeding .data 0 0 0 0).b32stat.qpos = 0) ∧
    ((feeding .data 1 5 0 0).b32stat.state = .data ∧ (feeding .data 1 5 0 0).b32stat.qpos ≠ 0) ∧
    (feeding .pad 3 0 2 0).b32stat.state = .pad ∧ (feeding .err 1 5 0 0).b32stat.state = .err := by decide

theorem witness_Base32DecodesEveryEncodedKey :
    ([] : List Byte).length ≤ 64 ∧ (List.replicate 64 (0xFF : Byte)).length ≤ 64 := by decide

/-- The text `MY======`. -/
theorem witness_AcceptedTextIsWholeQuanta :
    got (fun t => t.b32stat.state)
      (execAll (decodeText [0x4D, 0x59, 0x3D, 0x3D, 0x3D, 0x3D, 0x3D, 0x3D]) base) = some .done := by decide

/-- For HMAC, OTPGEN and PAYCHK: KEYLEN 1 and 64 are accepted, 0 and 65 are not, and a decode in progress is not. -/
theorem witness_keyed_commands :
    (keyStateOk { base with keylen := 1 } ∧ keyLenOk { base with keylen := 1 }) ∧
    (keyStateOk (feeding .done 0 0 0 0) ∧ keyLenOk { base with keylen := 64 }) ∧
    ¬ keyStateOk (feeding .ended 0 0 2 0) ∧ (keyStateOk base ∧ ¬ keyLenOk base) ∧
    ¬ keyLenOk { base with keylen := 65 } := by
  unfold keyStateOk keyLenOk; decide

theorem witness_CompressRunsEightyRounds : (List.replicate 64 (0x36 : Byte)).length = 64 := by decide

theorem witness_EachHashIsTwoBlocks : (List.replicate 64 (0x36 : Byte)).length = 64 ∧
    (counterMessage 1).length = 8 ∧ (sha1Iv.bytes).length = 20 := by decide

/-- The same key, with another byte past its end. -/
theorem witness_HmacIgnoresBytesPastKeylen :
    sameKey keyed { keyed with key := keyed.key.set 20 0xFF } ∧ keyStateOk keyed ∧ keyLenOk keyed ∧
    keyed.ctr = { keyed with key := keyed.key.set 20 0xFF }.ctr ∧ (∃ t, exec .hmac keyed = .next t) ∧
    ∃ t, exec .hmac { keyed with key := keyed.key.set 20 0xFF } = .next t :=
  ⟨⟨rfl, rfl, by decide⟩, .inl rfl, ⟨by decide, by decide⟩, rfl, ⟨_, rfl⟩, ⟨_, rfl⟩⟩

theorem witness_OtpDependsOnKeyAndStepOnly :
    sameKey { keyed with time := 30 } { keyed with time := 59 } ∧ keyStateOk { keyed with time := 30 } ∧
    keyLenOk { keyed with time := 30 } ∧ (30 : DWord).toNat / 30 = (59 : DWord).toNat / 30 ∧
    (∃ t, exec .otpgen { keyed with time := 30 } = .next t) ∧ ∃ t, exec .otpgen { keyed with time := 59 } = .next t :=
  ⟨⟨rfl, rfl, by decide⟩, .inl rfl, ⟨by decide, by decide⟩, rfl, ⟨_, rfl⟩, ⟨_, rfl⟩⟩

theorem witness_DivGivesQuotientAndRemainder : { base with b := 1 }.b ≠ 0 ∧ base.b = 0 := by decide
theorem witness_RestoringAlgorithmIsTheDivider : (1 : DWord) ≠ 0 ∧ (0xFFFFFFFFFFFFFFFF : DWord) ≠ 0 := by decide

theorem witness_PayencEncodesOrRefuses :
    base.x = 0 ∧ 9999 < { base with x := 10000 }.x.toNat ∧
    (1 ≤ (102 : Word).toNat ∧ (102 : Word).toNat ≤ 9999 ∧
      99999999 < base.uid.toNat / (102 : Word).toNat + base.factor.toNat * (102 : Word).toNat) ∧
    (1 ≤ (103 : Word).toNat ∧ (103 : Word).toNat ≤ 9999 ∧
      base.uid.toNat / (103 : Word).toNat + base.factor.toNat * (103 : Word).toNat ≤ 99999999) ∧
    (99999999 : DWord).toNat / (1 : Word).toNat + (0 : Word).toNat * (1 : Word).toNat ≤ 99999999 := by decide

/-- For PAYREC and PAYCHK: the largest fields and the first that do not fit; a difference of 0 and of -1. -/
theorem witness_paycode_fields :
    (9999 < (fields 10000 0 0 base).x.toNat) ∧
    ((fields 9999 100000000 0 base).x.toNat ≤ 9999 ∧ 99999999 < (fields 9999 100000000 0 base).y.toNat) ∧
    ((fields 9999 99999999 10000 base).y.toNat ≤ 99999999 ∧ 9999 < (fields 9999 99999999 10000 base).z.toNat) ∧
    (fieldsFit (fields 10 49 3 base) ∧ exactT (fields 10 49 3 base) < 0) ∧
    (fieldsFit (fields 10 50 3 base) ∧ 0 ≤ exactT (fields 10 50 3 base)) ∧
    (fieldsFit (fields 9999 99999999 9999 base) ∧ 0 ≤ exactT (fields 9999 99999999 9999 base)) := by
  unfold fieldsFit exactT; decide

theorem witness_PaychkValidates :
    (fieldsFit (fields 0 0 0 (feeding .data 1 5 0 0)) ∧ ¬ keyStateOk (fields 0 0 0 (feeding .data 1 5 0 0))) ∧
    (fieldsFit base ∧ keyStateOk base ∧ ¬ keyLenOk base) ∧
    (fieldsFit (fields 9999 99999999 9999 keyed) ∧ keyStateOk keyed ∧ keyLenOk keyed) := by
  unfold fieldsFit keyStateOk keyLenOk; decide

theorem witness_PaycodeRoundTrip : ∃ t, exec .payenc { base with x := 103 } = .next t ∧ t.errcode = .noError :=
  ⟨_, rfl, by decide⟩

/-- Program 3: TIME 59, then TIME 30 of the same step, and TIME 89 of the next, which has another OTP. -/
theorem witness_paycode_program :
    got (fun g => (g.errcode, got (fun e => (e.errcode, got (fun l => decide (l.otp ≠ g.otp))
        (exec .otpgen { e with time := 89 })))
      (exec .payenc { g with x := g.otp.setWidth 32 })))
      (exec .otpgen { keyed with time := 59 }) =
        some (ErrCode.noError, some (ErrCode.noError, some true)) ∧
    (30 : DWord).toNat / 30 = (59 : DWord).toNat / 30 := by decide +kernel

end Sys2Proof.Tests
end

section
/-! PROOFS for 00_scope.md: a paycode at a time whose OTP differs. First what OTPGEN, PAYENC and PAYCHK do
past their checks (42_otp_digest.md R120, 43_paycode_divider.md R128, R132), then O52. -/

namespace Sys2Proof.Machine

/-! ### OTPGEN (42_otp_digest.md R120) -/

/-- An OTPGEN that ended without an error passed the key checks and committed the fresh OTP. -/
theorem exec_otpgen_noError {s g : State} (h : exec .otpgen s = .next g) (ok : g.errcode = .noError) :
    keycheck s = none ∧ g = s.withFreshOtp := by
  obtain ⟨e, he, rfl⟩ | done := checked_eq_next h
  · exact absurd ok (keycheck_code_ne he)
  · exact done

/-- With a usable key OTPGEN commits the fresh OTP. -/
theorem exec_otpgen_of_keycheck {s : State} (key : keycheck s = none) :
    exec .otpgen s = .next s.withFreshOtp := by
  simp [exec, execOtpgen, key]

/-! ### PAYENC (43_paycode_divider.md R128) -/

/-- The commit of PAYENC: Y and Z as R128 computes them. -/
def State.withEncoded (s : State) : State :=
  { s with
    y := BitVec.ofNat 32 (encodedY s)
    z := (divu64 s.uid (s.x.setWidth 64)).remainder.setWidth 32 }

/-- The exact y of R128, in numbers. -/
theorem encodedY_eq (s : State) :
    encodedY s = s.uid.toNat / s.x.toNat + s.factor.toNat * s.x.toNat := by
  rw [encodedY, divu64_quotient_toNat, BitVec.toNat_setWidth_of_le (by decide)]

/-- An error of PAYENC's checks is an error. -/
theorem encodeCheck_code_ne {s : State} {e : CmdError} (h : encodeCheck s = some e) :
    e.code ≠ .noError := by
  have mem := firstError_mem h
  simp only [List.mem_cons, List.not_mem_nil, or_false] at mem
  rcases mem with h | h | h <;> obtain ⟨_, rfl⟩ := failIf_eq_some.mp h.symm <;>
    simp [divByZero, rangeError]

/-- PAYENC's checks pass exactly when X and the exact y are in range. -/
theorem encodeCheck_eq_none {s : State} :
    encodeCheck s = none ↔ s.x ≠ 0 ∧ s.x.toNat ≤ 9999 ∧ encodedY s ≤ 99999999 := by
  show encodeCheck s = none ↔ s.x ≠ 0 ∧ s.x.toNat ≤ Config.xMax ∧ encodedY s ≤ Config.yMax
  simp [encodeCheck, firstError_eq_none]

/-- A PAYENC that ended without an error passed its checks and committed Y and Z. -/
theorem exec_payenc_noError {s e : State} (h : exec .payenc s = .next e) (ok : e.errcode = .noError) :
    encodeCheck s = none ∧ e = s.withEncoded := by
  obtain ⟨err, herr, rfl⟩ | done := checked_eq_next h
  · exact absurd ok (encodeCheck_code_ne herr)
  · exact done

/-- The y committed is the exact y. -/
theorem withEncoded_y_toNat {s : State} (h : encodeCheck s = none) :
    s.withEncoded.y.toNat = encodedY s := by
  obtain ⟨-, -, hy⟩ := encodeCheck_eq_none.mp h
  simp only [State.withEncoded, BitVec.toNat_ofNat]
  omega

/-- The z committed is the exact remainder, which is below X. -/
theorem withEncoded_z_toNat {s : State} (h : encodeCheck s = none) :
    s.withEncoded.z.toNat = s.uid.toNat % s.x.toNat ∧ s.uid.toNat % s.x.toNat < s.x.toNat := by
  obtain ⟨hx, hmax, -⟩ := encodeCheck_eq_none.mp h
  have pos : 0 < s.x.toNat := by bv_omega
  have lt := Nat.mod_lt s.uid.toNat pos
  refine ⟨?_, lt⟩
  rw [State.withEncoded, BitVec.toNat_setWidth, divu64_remainder_toNat,
    BitVec.toNat_setWidth_of_le (by decide)]
  exact Nat.mod_eq_of_lt (by omega)

/-! ### What a paycode gives back (R129, R130) -/

/-- The field checks pass exactly when X, Y and Z are in range (R131). -/
theorem fieldcheck_eq_none {s : State} :
    fieldcheck s = none ↔ s.x.toNat ≤ 9999 ∧ s.y.toNat ≤ 99999999 ∧ s.z.toNat ≤ 9999 := by
  show fieldcheck s = none ↔
    s.x.toNat ≤ Config.xMax ∧ s.y.toNat ≤ Config.yMax ∧ s.z.toNat ≤ Config.zMax
  simp [fieldcheck, firstError_eq_none]

/-- What PAYENC commits passes the field checks. -/
theorem fieldcheck_withEncoded {s : State} (h : encodeCheck s = none) :
    fieldcheck s.withEncoded = none := by
  obtain ⟨-, hx, hy⟩ := encodeCheck_eq_none.mp h
  obtain ⟨hz, lt⟩ := withEncoded_z_toNat h
  rw [fieldcheck_eq_none, withEncoded_y_toNat h, hz]
  exact ⟨hx, hy, by omega⟩

/-- From what PAYENC commits, `Y - FACTOR * X` is the quotient of UID by X again. -/
theorem recoveredT_withEncoded {s : State} (h : encodeCheck s = none) :
    recoveredT s.withEncoded = (s.uid.toNat / s.x.toNat : Nat) := by
  rw [recoveredT, withEncoded_y_toNat h, encodedY_eq]
  simp [State.withEncoded]

/-- From what PAYENC commits, the identifier recovered is UID. -/
theorem recoveredUid_withEncoded {s : State} (h : encodeCheck s = none) :
    recoveredUid s.withEncoded = s.uid := by
  rw [recoveredUid, recoveredT_withEncoded h, Int.toNat_natCast, (withEncoded_z_toNat h).1]
  show BitVec.ofNat 64 (s.x.toNat * (s.uid.toNat / s.x.toNat) + s.uid.toNat % s.x.toNat) = s.uid
  rw [Nat.div_add_mod, BitVec.ofNat_toNat, BitVec.setWidth_eq]

/-! ### PAYCHK (R132) -/

/-- PAYCHK past the field and key checks. -/
theorem exec_paychk_of_checks {s : State} (fields : fieldcheck s = none) (key : keycheck s = none) :
    exec .paychk s = .next { s.withFreshOtp with
      origuid := checkedUid s
      chkinfo := checkInfo s
      valid := (checkInfo s).uidok && (checkInfo s).otpok } := by
  simp [exec, execPaychk, fields, key]

/-- The identifier PAYCHK recovers when `Y - FACTOR * X` is not negative. -/
theorem checkedUid_of_nonneg {s : State} (h : 0 ≤ recoveredT s) : checkedUid s = recoveredUid s :=
  if_neg (Int.not_lt.mpr h)

/-- PAYCHK's CHKINFO when the identifier compares equal: only the OTP decides. -/
theorem checkInfo_of_recovered {s : State} (nonneg : 0 ≤ recoveredT s) (uid : recoveredUid s = s.uid) :
    checkInfo s = { uidok := true, otpok := s.withFreshOtp.otp.toNat == s.x.toNat, neg := false } := by
  simp [checkInfo, checkedUid_of_nonneg nonneg, uid, nonneg]

/-- PAYCHK of a paycode that PAYENC made, at any time and with a usable key: UID is recovered without an
error, and the OTP that OTPGEN would give at that time alone decides (R129, R132, R133). -/
theorem exec_paychk_withEncoded {s l : State} {now : DWord} (code : encodeCheck s = none)
    (key : keycheck s = none) (fresh : exec .otpgen { s.withEncoded with time := now } = .next l) :
    ∃ t, exec .paychk { s.withEncoded with time := now } = .next t ∧ t.errcode = s.errcode ∧
      t.valid = (l.otp.toNat == s.x.toNat) ∧
      t.chkinfo = { uidok := true, otpok := l.otp.toNat == s.x.toNat, neg := false } ∧
      t.origuid = s.uid := by
  obtain rfl := Host.Outcome.next.inj (fresh.symm.trans (exec_otpgen_of_keycheck key))
  have nonneg : 0 ≤ recoveredT s.withEncoded :=
    (recoveredT_withEncoded code).symm ▸ Int.natCast_nonneg _
  have info := checkInfo_of_recovered (s := { s.withEncoded with time := now }) nonneg
    (recoveredUid_withEncoded code)
  refine ⟨_, exec_paychk_of_checks (fieldcheck_withEncoded code) key, rfl, ?_, info, ?_⟩
  · rw [info]
    rfl
  · exact (checkedUid_of_nonneg nonneg).trans (recoveredUid_withEncoded code)

end Sys2Proof.Machine

namespace Sys2Proof.Proofs

open Sys2Proof.Machine

/-- Settles O52: the key that served OTPGEN still serves PAYCHK, PAYENC's fields give UID back, and X is the
earlier OTP, so the fresh OTP is the one comparison that fails. -/
theorem latePaycodeIsRefused : Obligations.LatePaycodeIsRefused := by
  unfold Obligations.LatePaycodeIsRefused
  intro s g e l now hg gok he eok hl differs
  obtain ⟨key, rfl⟩ := exec_otpgen_noError hg gok
  obtain ⟨code, rfl⟩ := exec_payenc_noError he eok
  obtain ⟨t, run, noError, valid, info, origuid⟩ := exec_paychk_withEncoded code key hl
  have otpNe : (l.otp.toNat == (s.withFreshOtp.otp.setWidth 32).toNat) = false := by
    rw [BitVec.toNat_setWidth_of_le (by decide), beq_eq_false_iff_ne]
    exact fun same => differs (BitVec.eq_of_toNat_eq same)
  exact ⟨t, run, noError.trans gok, valid.trans otpNe,
    info.trans (congrArg (ChkInfo.mk true · false) otpNe), origuid⟩

end Sys2Proof.Proofs
end

section
/-! PROOFS for 10_state.md. First what a command can commit, said once for all twelve commands. -/

namespace Sys2Proof.Machine

/-! ### What a command commits (40_command.md R75, R143) -/

/-- The first check that a command fails before it does anything (60_exceptions.md R144); none where the
command has no such check or passes it. The base-32 commands refuse in their own way (41_base32.md). -/
def checkOf (s : State) : Instr → Option CmdError
  | .hmac => keycheck s
  | .otpgen => keycheck s
  | .div => failIf (s.b == 0) divByZero
  | .payenc => encodeCheck s
  | .payrec => firstError [fieldcheck s, failIf (recoveredT s < 0) (rangeError 4)]
  | .paychk => firstError [fieldcheck s, keycheck s]
  | _ => none

/-- The first error of two checks is an error of one of them. -/
theorem firstError_pair {a b : Option CmdError} {e : CmdError} (h : firstError [a, b] = some e) :
    a = some e ∨ b = some e := by
  simpa [eq_comm] using firstError_mem h

/-- A failed check is an error (60_exceptions.md R141). -/
theorem checkOf_code_ne {i : Instr} {s : State} {e : CmdError} (h : checkOf s i = some e) :
    e.code ≠ .noError := by
  cases i with
  | hmac | otpgen => exact keycheck_code_ne h
  | div =>
    obtain ⟨-, rfl⟩ := failIf_eq_some.mp h
    simp [divByZero]
  | payenc => exact encodeCheck_code_ne h
  | payrec =>
    obtain field | negative := firstError_pair h
    · exact fieldcheck_code_ne field
    · obtain ⟨-, rfl⟩ := failIf_eq_some.mp negative
      simp [rangeError]
  | paychk =>
    obtain field | key := firstError_pair h
    · exact fieldcheck_code_ne field
    · exact keycheck_code_ne key
  | _ => cases h

/-- `Commits s i t`: from `s`, command `i` may commit `t`. One constructor per way a command can end: its
results, or an error with the effects R143 gives it. -/
inductive Commits (s : State) : Instr → State → Prop where
  | checkFailed (i : Instr) (e : CmdError) (failed : checkOf s i = some e) : Commits s i (s.withError e)
  | nop : Commits s .nop s
  | b32rst : Commits s .b32rst { s with
      b32stat := { state := .idle, qpos := 0, nbits := 0, dcnt := 0, acc := 0 }
      b32cnt := 0
      keylen := 0
      key := Vector.replicate 64 0 }
  | charRefused (c : Byte) (e : CmdError) (isError : e.code ≠ .noError) :
      Commits s (.b32ch c) (s.counted.decoderFailed.withError e)
  | whitespace (c : Byte) (cls_eq : cls c = .ws) : Commits s (.b32ch c) s.counted
  | symbol (c : Byte) (v : BitVec 5) (u : State) (cls_eq : cls c = .sym v)
      (takes : s.b32stat.state = .idle ∨ s.b32stat.state = .data)
      (packed : pack v s = some u) :
      Commits s (.b32ch c)
        { u.counted with b32stat := { u.b32stat with qpos := u.b32stat.qpos + 1, state := .data } }
  | padBegins (c : Byte) (cls_eq : cls c = .padc) (inData : s.b32stat.state = .data)
      (may : padMayBegin s.b32stat.qpos = true) :
      Commits s (.b32ch c) { s.counted with
        b32stat := padTaken { s.b32stat with acc := 0, nbits := 0 } (s.b32stat.qpos.setWidth 4) }
  | padGoesOn (c : Byte) (cls_eq : cls c = .padc) (inPad : s.b32stat.state = .pad) :
      Commits s (.b32ch c) { s.counted with b32stat := padTaken s.b32stat s.b32stat.dcnt }
  | textRefused (e : CmdError) (isError : e.code ≠ .noError) :
      Commits s .b32fin (s.decoderFailed.withError e)
  | textEnds (whole : s.b32stat.state = .idle ∨ s.b32stat.state = .ended ∨ s.b32stat.state = .done ∨
        (s.b32stat.state = .data ∧ s.b32stat.qpos = 0)) :
      Commits s .b32fin { s with b32stat := { s.b32stat with state := .done } }
  | ctrgen : Commits s .ctrgen { s with ctr := counterOf s.time }
  | hmac (key : keycheck s = none) : Commits s .hmac { s with digest := digestOf s s.ctr }
  | trunc : Commits s .trunc (s.withTruncated (trunc s.digest))
  | otpgen (key : keycheck s = none) : Commits s .otpgen s.withFreshOtp
  | div (nonzero : s.b ≠ 0) :
      Commits s .div { s with q := (divu64 s.a s.b).quotient, r := (divu64 s.a s.b).remainder }
  | payenc (fits : encodeCheck s = none) : Commits s .payenc s.withEncoded
  | payrec (fields : fieldcheck s = none) (nonneg : 0 ≤ recoveredT s) :
      Commits s .payrec { s with origuid := recoveredUid s }
  | paychk (fields : fieldcheck s = none) (key : keycheck s = none) :
      Commits s .paychk { s.withFreshOtp with
        origuid := checkedUid s
        chkinfo := checkInfo s
        valid := (checkInfo s).uidok && (checkInfo s).otpok }

/-- A command whose checks come first commits the error of the failed one, or what it goes on to. -/
theorem commits_of_checked {i : Instr} {s u t : State} (h : checked (checkOf s i) s (.next u) = .next t)
    (goesOn : checkOf s i = none → Commits s i u) : Commits s i t := by
  obtain ⟨e, failed, rfl⟩ | ⟨passed, rfl⟩ := checked_eq_next h
  · exact .checkFailed i e failed
  · exact goesOn passed

/-- Whatever `exec` answers is one of the ways its command can end. -/
theorem exec_commits {i : Instr} {s t : State} (h : exec i s = .next t) : Commits s i t := by
  cases i with
  | nop => obtain rfl := Host.Outcome.next.inj h; exact .nop
  | b32rst => obtain rfl := Host.Outcome.next.inj h; exact .b32rst
  | b32ch c =>
    obtain ⟨e, isError, rfl⟩ | ⟨-, -, accepted⟩ := execB32ch_cases h
    · exact .charRefused c e isError
    · obtain ⟨ws, rfl⟩ | ⟨v, u, sym, takes, packed, rfl⟩ | ⟨padc, inData, may, rfl⟩ |
        ⟨padc, inPad, rfl⟩ := accepted
      · exact .whitespace c ws
      · exact .symbol c v u sym takes packed
      · exact .padBegins c padc inData may
      · exact .padGoesOn c padc inPad
  | b32fin =>
    obtain ⟨e, isError, rfl⟩ | ⟨whole, rfl⟩ := execB32fin_cases h
    · exact .textRefused e isError
    · exact .textEnds whole
  | ctrgen => obtain rfl := Host.Outcome.next.inj h; exact .ctrgen
  | hmac => exact commits_of_checked (i := .hmac) h .hmac
  | trunc => obtain rfl := Host.Outcome.next.inj h; exact .trunc
  | otpgen => exact commits_of_checked (i := .otpgen) h .otpgen
  | div => exact commits_of_checked (i := .div) h fun passed => .div (by simpa [checkOf] using passed)
  | payenc => exact commits_of_checked (i := .payenc) h .payenc
  | payrec =>
    refine commits_of_checked (i := .payrec) h fun passed => ?_
    obtain ⟨fields, nonneg⟩ : fieldcheck s = none ∧ 0 ≤ recoveredT s := by
      simpa [checkOf, firstError_eq_none] using passed
    exact .payrec fields nonneg
  | paychk =>
    refine commits_of_checked (i := .paychk) h fun passed => ?_
    obtain ⟨fields, key⟩ : fieldcheck s = none ∧ keycheck s = none := by
      simpa [checkOf, firstError_eq_none] using passed
    exact .paychk fields key

/-- The packer writes the key, KEYLEN and B32STAT only (41_base32.md R95). -/
theorem pack_frame {v : BitVec 5} {s u : State} (h : pack v s = some u) :
    ∃ key keylen b32stat, u = { s with key := key, keylen := keylen, b32stat := b32stat } := by
  obtain ⟨-, rfl⟩ | ⟨-, -, rfl⟩ := pack_cases h
  · exact ⟨_, _, _, rfl⟩
  · exact ⟨_, _, _, rfl⟩

end Sys2Proof.Machine

namespace Sys2Proof.Proofs

open Sys2Proof.Machine

/-- Settles O25, by the ways a command can end: each writes fields of its own write set only. -/
theorem everyCommandStaysInItsWriteSet : Obligations.EveryCommandStaysInItsWriteSet := by
  unfold Obligations.EveryCommandStaysInItsWriteSet
  intro i s t h
  cases exec_commits h with
  | symbol c v u _ takes packed => obtain ⟨_, _, _, rfl⟩ := pack_frame packed; simp
  | _ => simp [State.withEncoded]

end Sys2Proof.Proofs

namespace Sys2Proof.Machine

/-! ### The decoder invariant (10_state.md R26, 41_base32.md R90, R95, R96) -/

/-- The decoder's error effect keeps its registers, and ERR asks nothing more of them. -/
theorem consistent_err {b : B32Stat} (h : b.Consistent) : ({ b with state := .err } : B32Stat).Consistent := by
  obtain ⟨bits, acc, count, -⟩ := h
  exact ⟨bits, acc, count, by simp⟩

/-- From IDLE or DATA the packer holds 5 bits a symbol modulo 8, and no count of symbols is held. -/
theorem consistent_takes {b : B32Stat} (h : b.Consistent) (takes : b.state = .idle ∨ b.state = .data) :
    b.nbits.toNat = 5 * b.qpos.toNat % 8 ∧ b.dcnt = 0 := by
  obtain ⟨-, -, -, idle, data, -⟩ := h
  obtain st | st := takes
  · obtain ⟨q, n, d⟩ := idle st
    simp [q, n, d]
  · exact data st

/-- A decoder in DATA is consistent when its packer holds 5 bits a symbol modulo 8 and nothing above them. -/
theorem consistent_data {q : BitVec 3} {d : BitVec 4} {acc nbits : Nat} (pending : acc < 2 ^ nbits)
    (symbols : nbits = 5 * q.toNat % 8) (dcnt : d = 0) :
    ({ state := .data, qpos := q, nbits := BitVec.ofNat 4 nbits, dcnt := d, acc := BitVec.ofNat 7 acc } :
      B32Stat).Consistent := by
  have bits : nbits ≤ 7 := by omega
  have hn : (BitVec.ofNat 4 nbits).toNat = nbits := Nat.mod_eq_of_lt (by omega)
  have ha : (BitVec.ofNat 7 acc).toNat = acc :=
    Nat.mod_eq_of_lt (pending.trans_le (Nat.pow_le_pow_right (by decide) bits))
  refine ⟨hn.trans_le bits, ?_, .inl dcnt, by simp, fun _ => ⟨hn.trans symbols, dcnt⟩, by simp, by simp,
    by simp⟩
  rw [hn, ha]
  exact pending

/-- A symbol taken keeps the decoder consistent (R95). -/
theorem consistent_pack {v : BitVec 5} {s u : State} (h : s.b32stat.Consistent)
    (takes : s.b32stat.state = .idle ∨ s.b32stat.state = .data) (packed : pack v s = some u) :
    ({ u.b32stat with qpos := u.b32stat.qpos + 1, state := .data } : B32Stat).Consistent := by
  obtain ⟨symbols, dcnt⟩ := consistent_takes h takes
  obtain ⟨-, pending, -⟩ := h
  have advanced : (s.b32stat.qpos + 1).toNat = (s.b32stat.qpos.toNat + 1) % 8 := BitVec.toNat_add _ _
  obtain ⟨few, rfl⟩ | ⟨many, -, rfl⟩ := pack_cases packed
  · refine consistent_data ?_ (by dsimp only; omega) dcnt
    rw [Nat.pow_add]
    omega
  · exact consistent_data (Nat.mod_lt _ (Nat.two_pow_pos _)) (by dsimp only; omega) dcnt

/-- Padding with `dc` data symbols in a quantum whose QPOS they have reached keeps the decoder consistent (R96). -/
theorem consistent_padTaken {b : B32Stat} {dc : BitVec 4} (acc : b.acc = 0) (nbits : b.nbits = 0)
    (legal : dc = 2 ∨ dc = 4 ∨ dc = 5 ∨ dc = 7) (reached : dc.toNat ≤ b.qpos.toNat) :
    (padTaken b dc).Consistent := by
  unfold padTaken
  split
  next => simp [B32Stat.Consistent, acc, nbits, legal]
  next notFull =>
    have padLegal : ({ b with qpos := b.qpos + 1, state := .pad, dcnt := dc } : B32Stat).dcntLegal := legal
    simp [B32Stat.Consistent, acc, nbits, padLegal]
    omega

/-- Every command keeps the decoder consistent. -/
theorem exec_keeps_consistent {i : Instr} {s t : State} (h : exec i s = .next t)
    (inv : s.b32stat.Consistent) : t.b32stat.Consistent := by
  cases exec_commits h with
  | b32rst => simp [B32Stat.Consistent]
  | charRefused c e isError => exact consistent_err inv
  | textRefused e isError => exact consistent_err inv
  | symbol c v u _ takes packed => exact consistent_pack inv takes packed
  | padBegins c _ inData may =>
    have legal : s.b32stat.qpos = 2 ∨ s.b32stat.qpos = 4 ∨ s.b32stat.qpos = 5 ∨ s.b32stat.qpos = 7 := by
      simpa [padMayBegin, or_assoc] using may
    refine consistent_padTaken rfl rfl (by bv_omega) ?_
    exact (BitVec.toNat_setWidth_of_le (by decide)).le
  | padGoesOn c _ inPad =>
    obtain ⟨-, pending, -, -, -, pad, -⟩ := inv
    obtain ⟨nbits, legal, reached⟩ := pad inPad
    refine consistent_padTaken ?_ nbits legal reached.le
    rw [nbits] at pending
    exact BitVec.eq_of_toNat_eq (Nat.lt_one_iff.mp pending)
  | textEnds whole =>
    obtain ⟨bits, pending, count, idle, data, -, ended, done⟩ := inv
    have empty : s.b32stat.qpos = 0 ∧ s.b32stat.nbits = 0 := by
      obtain st | st | st | ⟨st, q⟩ := whole
      · have ⟨q, n, _⟩ := idle st; exact ⟨q, n⟩
      · have ⟨q, n, _⟩ := ended st; exact ⟨q, n⟩
      · exact done st
      · have ⟨symbols, _⟩ := data st
        exact ⟨q, BitVec.eq_of_toNat_eq (by simpa [q] using symbols)⟩
    exact ⟨bits, pending, count, by simp, by simp, by simp, by simp, fun _ => empty⟩
  | _ => exact inv

/-! ### The ranges of the results (42_otp_digest.md R118, 43_paycode_divider.md R130) -/

/-- The number of a window has its top bit clear (R118). -/
theorem packWord_masked_lt (b0 b1 b2 b3 : Byte) : (packWord (b0 &&& 0x7F) b1 b2 b3).toNat < 2 ^ 31 := by
  have top : (b0 &&& 0x7F).toNat ≤ 0x7F := by
    rw [BitVec.toNat_and]
    exact Nat.and_le_right
  rw [packWord_toNat]
  omega

/-- The reduction of a 31-bit number modulo 10000 on the divider (R118, R119). -/
theorem reduced_toNat {number : Word} (h : number.toNat < 2 ^ 31) :
    ((divu64 (number.setWidth 64) (BitVec.ofNat 64 Config.otpModulus)).remainder.setWidth 14).toNat =
      (number.setWidth 31).toNat % 10000 := by
  have modulus : (BitVec.ofNat 64 Config.otpModulus).toNat = 10000 := rfl
  have lt := Nat.mod_lt number.toNat (show 0 < 10000 by decide)
  rw [BitVec.toNat_setWidth, divu64_remainder_toNat, modulus, BitVec.toNat_setWidth_of_le (by decide),
    BitVec.toNat_setWidth, Nat.mod_eq_of_lt h]
  exact Nat.mod_eq_of_lt (by omega)

/-- Truncation gives the number modulo 10000 as its OTP (R118). -/
theorem trunc_otp_toNat (d : Digest) : (trunc d).otp.toNat = (trunc d).number.toNat % 10000 :=
  reduced_toNat (packWord_masked_lt _ _ _ _)

/-- The identifier that checked fields give back is in range (R130). -/
theorem recoveredUid_le {s : State} (fields : fieldcheck s = none):
    (recoveredUid s).toNat ≤ 9999 * 99999999 + 9999 := by
  obtain ⟨hx, hy, hz⟩ := fieldcheck_eq_none.mp fields
  have ht : (recoveredT s).toNat ≤ 99999999 := by
    have : 0 ≤ (s.factor.toNat : Int) * s.x.toNat := by positivity
    simp only [recoveredT] at *
    omega
  calc (recoveredUid s).toNat ≤ s.x.toNat * (recoveredT s).toNat + s.z.toNat := by
        rw [recoveredUid, BitVec.toNat_ofNat]
        exact Nat.mod_le _ _
    _ ≤ 9999 * 99999999 + 9999 := Nat.add_le_add (Nat.mul_le_mul hx ht) hz

/-- The identifier PAYCHK writes is in range (R132). -/
theorem checkedUid_le {s : State} (fields : fieldcheck s = none) :
    (checkedUid s).toNat ≤ 9999 * 99999999 + 9999 := by
  unfold checkedUid
  split
  next => decide
  next => exact recoveredUid_le fields

/-- Every command keeps the results in their ranges. -/
theorem exec_keeps_ranges {i : Instr} {s t : State} (h : exec i s = .next t) (inv : s.ResultsInRange) :
    t.ResultsInRange := by
  obtain ⟨otp, origuid⟩ := inv
  cases exec_commits h with
  | symbol c v u _ takes packed => obtain ⟨_, _, _, rfl⟩ := pack_frame packed; exact ⟨otp, origuid⟩
  | trunc => exact ⟨trunc_otp_toNat _, origuid⟩
  | otpgen => exact ⟨trunc_otp_toNat _, origuid⟩
  | payrec fields nonneg => exact ⟨otp, recoveredUid_le fields⟩
  | paychk fields key => exact ⟨trunc_otp_toNat _, checkedUid_le fields⟩
  | _ => exact ⟨otp, origuid⟩

/-! ### The record (10_state.md R22, R24, R36, 40_command.md R73) -/

/-- An error recorded over a clear VALID is a consistent record: nothing asks for its detail. -/
theorem record_withError {s : State} {e : CmdError} (isError : e.code ≠ .noError) (clear : s.valid = false)
    (neg : s.chkinfo.neg = true → s.chkinfo.uidok = false) : (s.withError e).RecordConsistent :=
  ⟨fun none => absurd none isError, fun valid => absurd (clear.symm.trans valid) (by decide), neg⟩

/-- PAYCHK's CHKINFO has UIDOK clear when the recovered value is negative (R132). -/
theorem checkInfo_neg (s : State) (h : (checkInfo s).neg = true) : (checkInfo s).uidok = false := by
  simp_all [checkInfo]

/-- A command committed in flight leaves a consistent record: issue has cleared the last one (R73). -/
theorem exec_keeps_record {i : Instr} {s t : State} (h : exec i s = .next t) (noError : s.errcode = .noError)
    (clear : s.valid = false) (inv : s.RecordConsistent) : t.RecordConsistent := by
  have ⟨info, _, neg⟩ := inv
  cases exec_commits h with
  | checkFailed i e failed => exact record_withError (checkOf_code_ne failed) clear neg
  | charRefused c e isError => exact record_withError isError clear neg
  | textRefused e isError => exact record_withError isError clear neg
  | symbol c v u _ takes packed => obtain ⟨_, _, _, rfl⟩ := pack_frame packed; exact inv
  | paychk fields key =>
    exact ⟨info, fun valid => ⟨noError, by simpa using valid⟩, checkInfo_neg s⟩
  | _ => exact inv

/-! ### The invariant, step by step (40_command.md R73, R75, 20_memory.md R53) -/

/-- A completion keeps the invariant, whatever the word latched. -/
theorem completion_keeps_inv {w : Word} {s u : State} (h : execWord w s = .next u) (flying : s.inflight = true)
    (inv : s.Inv) : u.finish.Inv := by
  obtain ⟨decoder, flight, record, ranges⟩ := inv
  obtain ⟨-, -, noError, clear⟩ := flight flying
  have landed : u.finish.FlightConsistent := by simp [State.FlightConsistent]
  unfold execWord at h
  split at h
  next i _ =>
    have recorded : u.RecordConsistent := exec_keeps_record h noError clear record
    have ranged : u.ResultsInRange := exec_keeps_ranges h ranges
    have decoding : u.b32stat.Consistent := exec_keeps_consistent h decoder
    exact ⟨decoding, landed, recorded, ranged⟩
  next =>
    obtain rfl := Host.Outcome.next.inj h
    obtain ⟨-, -, neg⟩ := record
    have recorded : (s.withError ⟨.illegal, w⟩).RecordConsistent := record_withError (by simp) clear neg
    exact ⟨decoder, landed, recorded, ranges⟩

/-- The core's turn keeps the invariant. -/
theorem coreTurn_keeps_inv {s t : State} (h : coreTurn s = .next t) (inv : s.Inv) : t.Inv := by
  obtain ⟨-, rfl⟩ | ⟨flying, w, u, -, run, rfl⟩ := coreTurn_cases h
  · exact inv
  · exact completion_keeps_inv run flying inv

/-- Reset meets the invariant: the decoder is in IDLE with nothing pending, and the record is clear. -/
theorem resetState_inv (s : State) : (resetState s).Inv := by
  show State.reset.Inv
  have decoder : State.reset.b32stat.Consistent := by simp [B32Stat.Consistent, State.reset]
  have flight : State.reset.FlightConsistent := by decide
  have record : State.reset.RecordConsistent := by decide
  have ranges : State.reset.ResultsInRange := by decide
  exact ⟨decoder, flight, record, ranges⟩

/-- A store into a register keeps the invariant, which speaks of no register the host can store into. -/
theorem storeReg_keeps_inv (r : Reg) (v : Word) {s : State} (inv : s.Inv) : (storeReg r v s).Inv := by
  cases r <;> exact inv

/-- A write of STATUS keeps the invariant: it can only clear DONE, which is clear in flight. -/
theorem writeStatus_keeps_inv (v : Word) {s : State} (inv : s.Inv) : (writeStatus v s).Inv := by
  obtain ⟨decoder, flight, record, ranges⟩ := inv
  refine ⟨decoder, fun flying => ?_, record, ranges⟩
  obtain ⟨latched, notDone, noError, clear⟩ := flight flying
  exact ⟨latched, by simp [writeStatus, notDone], noError, clear⟩

/-- Issue keeps the invariant: it latches the word and clears the record (R73). -/
theorem issue_keeps_inv (w : Word) {s : State} (inv : s.Inv) : (issue w s).Inv := by
  obtain ⟨decoder, -, ⟨-, -, neg⟩, ranges⟩ := inv
  exact ⟨decoder, by simp [State.FlightConsistent], ⟨by simp, by simp, neg⟩, ranges⟩

/-- A write of a register keeps the invariant. -/
theorem writeReg_keeps_inv (r : Reg) (v : Word) {s : State} (inv : s.Inv) : (writeReg r v s).Inv := by
  obtain ⟨-, -, eq⟩ | ⟨-, -, eq⟩ | ⟨-, eq⟩ | ⟨-, -, -, eq⟩ | ⟨-, -, eq⟩ | ⟨-, -, -, -, eq⟩ :=
    writeReg_cases r v s <;> rw [eq]
  · exact resetState_inv s
  · exact inv
  · exact writeStatus_keeps_inv v inv
  · exact inv
  · exact issue_keeps_inv v inv
  · exact storeReg_keeps_inv r v inv

/-- A host access keeps the invariant. -/
theorem hostAccess_keeps_inv {a : HostAccess} {s t : State} (h : hostAccess a s = .next t) (inv : s.Inv) :
    t.Inv := by
  obtain ⟨r, -, rfl⟩ | ⟨r, v, -, rfl⟩ := hostAccess_cases h
  · exact inv
  · exact writeReg_keeps_inv r v inv

end Sys2Proof.Machine

namespace Sys2Proof.Proofs

open Sys2Proof.Machine

/-- Settles O6, by the kinds of turn: a completion, a reset or a host access. -/
theorem stepKeepsInvariant : Obligations.StepKeepsInvariant := by
  unfold Obligations.StepKeepsInvariant
  intro s t inv h
  obtain ⟨-, turn⟩ | ⟨rest, -, turn⟩ | ⟨rest, -, rfl⟩ | ⟨a, rest, -, turn⟩ := step_cases h
  · exact coreTurn_keeps_inv turn inv
  · exact coreTurn_keeps_inv turn inv
  · exact resetState_inv _
  · exact hostAccess_keeps_inv turn inv

/-- Settles O5: the reset state is what every reset comes to. -/
theorem resetSatisfiesInvariant : Obligations.ResetSatisfiesInvariant :=
  resetState_inv State.reset

end Sys2Proof.Proofs
end

section
/-! PROOFS for 10_state.md, the registers: what a host write stores, what each offset reads, and the two
accesses of a 64-bit register. -/

namespace Sys2Proof.Machine

/-! ### Host writes that are taken (20_memory.md R53) -/

/-- With INFLIGHT 0 a write of a register with no rule of its own is a store. -/
theorem step_idle_write {s : State} {r : Reg} {v : Word} {rest : List Turn} (idle : s.inflight = false)
    (plain : r ≠ .ctrl ∧ r ≠ .status ∧ r ≠ .cmd) (h : s.schedule = .host (.write r.byteOffset 4 v) :: rest) :
    step s = .next (storeReg r v { s with schedule := rest }) := by
  obtain ⟨notCtrl, notStatus, notCmd⟩ := plain
  rw [step_cons h]
  simp [runTurn, writeReg, notCtrl, notStatus, notCmd, idle]

/-- A write of CTRL follows its own rule (10_state.md R21). -/
theorem writeReg_ctrl (v : Word) (s : State) :
    writeReg .ctrl v s = if v.getLsbD 1 then resetState s else { s with ie := v.getLsbD 0 } := rfl

/-- A write of STATUS clears DONE and WIGN where its bits 1 and 4 are 1 (R22). -/
theorem writeReg_status (v : Word) (s : State) :
    writeReg .status v s =
      { s with done := s.done && !v.getLsbD 1, wign := s.wign && !v.getLsbD 4 } := by
  have clears : ∀ bit flag : Bool, (if bit then false else flag) = (flag && !bit) := by decide
  show writeStatus v s = _
  rw [writeStatus, clears, clears]

/-- A store leaves the hidden state and the model's own fields alone. -/
@[simp] theorem storeReg_inflight (r : Reg) (v : Word) (s : State) : (storeReg r v s).inflight = s.inflight := by
  cases r <;> rfl
@[inherit_doc storeReg_inflight, simp]
theorem storeReg_cur (r : Reg) (v : Word) (s : State) : (storeReg r v s).cur = s.cur := by
  cases r <;> rfl
@[inherit_doc storeReg_inflight, simp]
theorem storeReg_schedule (r : Reg) (v : Word) (s : State) : (storeReg r v s).schedule = s.schedule := by
  cases r <;> rfl
@[inherit_doc storeReg_inflight, simp]
theorem storeReg_rdata (r : Reg) (v : Word) (s : State) : (storeReg r v s).rdata = s.rdata := by
  cases r <;> rfl

/-- KEYLEN keeps bits 6 to 0 of what is stored (10_state.md R25). -/
theorem setWidth_keylen (v : Word) : (v.extractLsb' 0 7).setWidth 32 = v &&& 0x7F := by
  apply BitVec.eq_of_toNat_eq
  rw [BitVec.toNat_setWidth_of_le (by decide), BitVec.extractLsb'_toNat, BitVec.toNat_and]
  exact (Nat.and_two_pow_sub_one_eq_mod _ 7).symm

/-- An RW register reads what was stored into it, cut to its width (R19, R25). -/
theorem readReg_storeReg_same {r : Reg} (writable : Spec.isRw r) (v : Word) (s : State) :
    readReg r (storeReg r v s) = if r = .keylen then v &&& 0x7F else v := by
  obtain named | ⟨k, rfl⟩ := writable
  · fin_cases named <;> simp [readReg, storeReg, setWidth_keylen]
  · exact keyWord_setKeyWord s.key k v

/-- A store into a register that is not RW is ignored (R19). -/
theorem storeReg_of_not_rw {r : Reg} (notRw : ¬ Spec.isRw r) (v : Word) (s : State) : storeReg r v s = s := by
  cases r <;> simp [Spec.isRw, storeReg] at notRw ⊢

/-- A store changes no other register (R19, R38, R39). The register stored into decides: of a pair the other
half is kept (`lo_setHi`, `hi_setLo`), of the key the other words are, and every other register reads a field
that the store does not write. -/
theorem readReg_storeReg_of_ne {r r' : Reg} (ne : r' ≠ r) (v : Word) (s : State) :
    readReg r' (storeReg r v s) = readReg r' s := by
  by_cases writable : Spec.isRw r
  · obtain named | ⟨k, rfl⟩ := writable
    · fin_cases named <;> cases r' <;>
        simp only [readReg, storeReg, lo_setHi, hi_setLo, ne_eq, not_true_eq_false] at ne ⊢ <;> rfl
    · cases r' with
      | keybuf j => exact keyWord_setKeyWord_of_ne s.key v fun same => ne (congrArg Reg.keybuf same)
      | _ => rfl
  · rw [storeReg_of_not_rw writable]

/-- No register shows what is scheduled. -/
theorem readReg_with_schedule (r : Reg) (s : State) (rest : List Turn) :
    readReg r { s with schedule := rest } = readReg r s := by
  cases r <;> rfl

/-- The registers of R18's RW column have no rule of their own. -/
theorem isRw_plain {r : Reg} (writable : Spec.isRw r) : r ≠ .ctrl ∧ r ≠ .status ∧ r ≠ .cmd := by
  refine ⟨?_, ?_, ?_⟩ <;> rintro rfl <;> simp [Spec.isRw] at writable

/-- A register of R18's RO column is not RW and has no rule of its own. -/
theorem isRo_plain {r : Reg} (ro : Spec.isRo r) :
    ¬ Spec.isRw r ∧ r ≠ .ctrl ∧ r ≠ .status ∧ r ≠ .cmd := by
  refine ⟨?_, ?_, ?_, ?_⟩
  · cases r <;> simp [Spec.isRo, Spec.isRw] at ro ⊢
  all_goals rintro rfl; simp [Spec.isRo] at ro

/-! ### WR64 (10_state.md R39, 30_encoding.md R67) -/

/-- Writing the LO register and then the HI register puts a 64-bit value in place. -/
theorem setHi_setLo (u v : DWord) : setHi (setLo u (lo v)) (hi v) = v := by
  rw [setHi, lo_setLo, hi_append_lo]

/-- A 64-bit value with a new LO register, as a number: the old high half and the new low half. -/
theorem setLo_toNat (u v : DWord) :
    (setLo u (lo v)).toNat = u.toNat / 2 ^ 32 * 2 ^ 32 + v.toNat % 2 ^ 32 := by
  have high : (hi u).toNat = u.toNat / 2 ^ 32 := by
    rw [hi, BitVec.extractLsb'_toNat, Nat.shiftRight_eq_div_pow]
    omega
  have low : (lo v).toNat = v.toNat % 2 ^ 32 := by
    rw [lo, BitVec.extractLsb'_toNat, Nat.shiftRight_zero]
  show BitVec.toNat (w := 32 + 32) (hi u ++ lo v) = _
  rw [toNat_append_eq, high, low]

/-- A run of one step more starts with that step. -/
theorem run_succ_of_step {M : Host.Core} {s t : M.State} (h : M.step s = .next t) (k : Nat) :
    M.run (k + 1) s = M.run k t := by
  simp only [Host.Core.run, h]

@[inherit_doc run_succ_of_step]
theorem core_run_succ {s t : State} (h : step s = .next t) (k : Nat) :
    Sys2Proof.core.run (k + 1) s = Sys2Proof.core.run k t :=
  run_succ_of_step (M := Sys2Proof.core) (s := s) (t := t) h k

/-- The 64-bit registers that the host writes (10_state.md R18). -/
def rwPairs : List RegPair := [uidPair, timePair, ctrPair, aPair, bPair]

/-- Both halves of such a register are RW. -/
theorem isRw_of_mem_rwPairs {p : RegPair} (h : p ∈ rwPairs) : Spec.isRw p.loReg ∧ Spec.isRw p.hiReg := by
  fin_cases h <;> simp [Spec.isRw, uidPair, timePair, ctrPair, aPair, bPair]

/-- The first access of WR64 stores the low half. -/
theorem step_hostWr64_lo {s : State} {p : RegPair} (v : DWord) (idle : s.inflight = false)
    (pair : p ∈ rwPairs) :
    step { s with schedule := hostWr64 p v } =
      .next (storeReg p.loReg (lo v) { s with schedule := [hostWr p.hiReg (hi v)] }) :=
  step_idle_write (s := { s with schedule := hostWr64 p v }) idle
    (isRw_plain (isRw_of_mem_rwPairs pair).1) rfl

/-- The two accesses of WR64 store the low half and then the high half. -/
theorem run_hostWr64 {s : State} {p : RegPair} (v : DWord) (idle : s.inflight = false)
    (pair : p ∈ rwPairs) :
    Sys2Proof.core.run 2 { s with schedule := hostWr64 p v } =
      .next (storeReg p.hiReg (hi v)
        { storeReg p.loReg (lo v) { s with schedule := [hostWr p.hiReg (hi v)] } with schedule := [] }) :=
  have second := step_idle_write (s := storeReg p.loReg (lo v) { s with schedule := [hostWr p.hiReg (hi v)] })
    ((storeReg_inflight _ _ _).trans idle) (isRw_plain (isRw_of_mem_rwPairs pair).2) (storeReg_schedule _ _ _)
  (core_run_succ (step_hostWr64_lo v idle pair) 1).trans (core_run_succ second 0)

end Sys2Proof.Machine

namespace Sys2Proof.Proofs

open Sys2Proof.Machine Sys2Proof.Spec

/-- Settles O13: the step is the store, and what each register reads after a store is known. -/
theorem idleWriteStoresOneRegister : Obligations.IdleWriteStoresOneRegister := by
  unfold Obligations.IdleWriteStoresOneRegister
  intro s r v rest idle writable h
  refine ⟨_, step_idle_write idle (isRw_plain writable) h, readReg_storeReg_same writable v _,
    fun r' ne => ?_, ?_, ?_, ?_, ?_⟩
  · exact (readReg_storeReg_of_ne ne v _).trans (readReg_with_schedule r' s rest)
  all_goals simp [idle]

/-- Settles O14: the step is a store, which a read-only register ignores. -/
theorem idleWriteOfReadOnlyIsIgnored : Obligations.IdleWriteOfReadOnlyIsIgnored := by
  unfold Obligations.IdleWriteOfReadOnlyIsIgnored
  intro s r v rest idle ro h
  obtain ⟨notRw, plain⟩ := isRo_plain ro
  rw [step_idle_write idle plain h, storeReg_of_not_rw notRw]

/-- Settles O16: neither rule looks at INFLIGHT. -/
theorem controlWritesAlwaysAct : Obligations.ControlWritesAlwaysAct := by
  unfold Obligations.ControlWritesAlwaysAct
  intro s v rest
  constructor
  · intro noReset h
    rw [step_cons h]
    refine (hostAccess_write .ctrl v _).trans ?_
    rw [writeReg_ctrl, if_neg (Bool.eq_false_iff.mp noReset)]
  · intro h
    rw [step_cons h]
    refine (hostAccess_write .status v _).trans ?_
    rw [writeReg_status]

/-- Settles O18: each pair has its two halves stored in turn, and TIME its low half after the first. -/
theorem pairWriteTakesTwoAccesses : Obligations.PairWriteTakesTwoAccesses := by
  unfold Obligations.PairWriteTakesTwoAccesses
  intro s v idle
  refine ⟨?uid, ?time, ?ctr, ?a, ?b, ?torn⟩
  case torn =>
    exact ⟨_, core_run_succ (step_hostWr64_lo (p := timePair) v idle (by simp [rwPairs])) 0,
      setLo_toNat s.time v⟩
  case uid => exact ⟨_, run_hostWr64 v idle (by simp [rwPairs]), setHi_setLo s.uid v⟩
  case time => exact ⟨_, run_hostWr64 v idle (by simp [rwPairs]), setHi_setLo s.time v⟩
  case ctr => exact ⟨_, run_hostWr64 v idle (by simp [rwPairs]), setHi_setLo s.ctr v⟩
  case a => exact ⟨_, run_hostWr64 v idle (by simp [rwPairs]), setHi_setLo s.a v⟩
  case b => exact ⟨_, run_hostWr64 v idle (by simp [rwPairs]), setHi_setLo s.b v⟩

end Sys2Proof.Proofs

namespace Sys2Proof.Machine

/-! ### Key words (10_state.md R38, 20_memory.md R47) -/

/-- A key word written changes its own four bytes, the first to bits 31 to 24 of the word, and no other. -/
theorem getElem_setKeyWord (key : Vector Byte 64) (k : Fin 16) (w : Word) (j : Fin 64) :
    (setKeyWord key k w)[j] = if j.val / 4 = k.val then wordByte w (j.val % 4) else key[j] := by
  obtain ⟨j, hj⟩ := j
  simp only [setKeyWord, Fin.getElem_fin, Vector.getElem_set]
  by_cases own : j / 4 = k.val
  · rw [if_pos own]
    obtain rfl | rfl | rfl | rfl : j = 4 * k.val ∨ j = 4 * k.val + 1 ∨ j = 4 * k.val + 2 ∨ j = 4 * k.val + 3 := by
      omega
    all_goals simp
  · rw [if_neg own, if_neg (by omega), if_neg (by omega), if_neg (by omega), if_neg (by omega)]

/-! ### What each offset reads (10_state.md R18) -/

/-- A 4-byte read at a register's offset gives the register. -/
theorem memRead_byteOffset (r : Reg) (s : State) : memRead r.byteOffset 4 s = .data (readReg r s) := by
  rw [memRead, accessedReg_byteOffset]

/-- The number of an error code is its bits (60_exceptions.md R141). -/
theorem errCode_toBits_toNat (e : ErrCode) : e.toBits.toNat = Spec.errNumber e := by
  cases e <;> rfl

/-- The number of a decoder state is its bits (R26). -/
theorem b32State_toBits_toNat (b : B32State) : b.toBits.toNat = Spec.stateNumber b := by
  cases b <;> rfl

/-- CTRL as a number (R21). -/
theorem ctrlWord_eq (s : State) : ctrlWord s = BitVec.ofNat 32 s.ie.toNat := by
  unfold ctrlWord
  cases s.ie <;> rfl

/-- STATUS as the sum of its fields (R22). -/
theorem statusWord_eq (s : State) :
    statusWord s = BitVec.ofNat 32 (s.inflight.toNat + 2 * s.done.toNat + 4 * (s.errcode != .noError).toNat +
      8 * s.valid.toNat + 16 * s.wign.toNat + 256 * Spec.errNumber s.errcode) := by
  apply BitVec.eq_of_toNat_eq
  show BitVec.toNat (w := 20 + 4 + 3 + 1 + 1 + 1 + 1 + 1) ((0 : BitVec 20) ++ s.errcode.toBits ++ (0 : BitVec 3) ++
    flagBit s.wign ++ flagBit s.valid ++ flagBit s.errFlag ++ flagBit s.done ++ flagBit s.busy) = _
  simp only [toNat_append_eq, flagBit, BitVec.toNat_ofBool, errCode_toBits_toNat, State.errFlag, State.busy,
    show (0 : BitVec 20).toNat = 0 from rfl, show (0 : BitVec 3).toNat = 0 from rfl]
  have code : Spec.errNumber s.errcode ≤ 7 := by cases s.errcode <;> decide
  have busy := Bool.toNat_le s.inflight
  have done := Bool.toNat_le s.done
  have err := Bool.toNat_le (s.errcode != .noError)
  have valid := Bool.toNat_le s.valid
  have wign := Bool.toNat_le s.wign
  rw [BitVec.toNat_ofNat, Nat.mod_eq_of_lt (by omega)]
  omega

/-- B32STAT as the sum of its fields (R26). -/
theorem b32statWord_eq (b : B32Stat) :
    b32statWord b = BitVec.ofNat 32 (Spec.stateNumber b.state + 16 * b.qpos.toNat + 256 * b.nbits.toNat +
      4096 * b.dcnt.toNat + 65536 * b.acc.toNat) := by
  rw [← b32State_toBits_toNat, ← b32statWord_toNat, BitVec.ofNat_toNat, BitVec.setWidth_eq]

/-- CHKINFO as the sum of its fields (R36). -/
theorem chkinfoWord_eq (c : ChkInfo) :
    chkinfoWord c = BitVec.ofNat 32 (c.uidok.toNat + 2 * c.otpok.toNat + 4 * c.neg.toNat) := by
  unfold chkinfoWord
  cases c.uidok <;> cases c.otpok <;> cases c.neg <;> rfl

/-- The rows of R18's table below the key buffer are the registers of the map. -/
theorem registerTable_eq (s : State) :
    Spec.registerTable s = (Reg.lowWindow ++ Reg.highWindow).map fun r => (r.byteOffset, readReg r s) := by
  simp only [Spec.registerTable, ← ctrlWord_eq, ← statusWord_eq, ← b32statWord_eq, ← chkinfoWord_eq,
    BitVec.ofNat_toNat]
  rfl

end Sys2Proof.Machine

namespace Sys2Proof.Proofs

open Sys2Proof.Machine Sys2Proof.Spec

/-- Settles O12: each row of the table, and each key word, is a register at its own offset. -/
theorem registerLayout : Obligations.RegisterLayout := by
  unfold Obligations.RegisterLayout
  intro s
  constructor
  · intro row mem
    rw [registerTable_eq] at mem
    obtain ⟨r, -, rfl⟩ := List.mem_map.mp mem
    exact memRead_byteOffset r s
  · intro k
    exact memRead_byteOffset (.keybuf k) s

/-- Settles O19: the step stores the word, and where each of its bytes goes is known. -/
theorem keyWordPacksBigEndian : Obligations.KeyWordPacksBigEndian := by
  unfold Obligations.KeyWordPacksBigEndian
  intro s k v rest idle h
  refine ⟨_, step_idle_write (r := .keybuf k) idle (by simp) h, rfl, fun j i hi hj => ?_, fun j ne => ?_⟩
  · refine (getElem_setKeyWord s.key k v j).trans ?_
    rw [if_pos (by omega), show j.val % 4 = i by omega, wordByte]
  · exact (getElem_setKeyWord s.key k v j).trans (if_neg ne)

/-- Settles O42, byte by byte: each of the 20 places picks one byte of one word. -/
theorem digestBytesAreBigEndian : Obligations.DigestBytesAreBigEndian := by
  unfold Obligations.DigestBytesAreBigEndian
  intro d j
  fin_cases j <;> exact ⟨rfl, rfl⟩

end Sys2Proof.Proofs
end

section
/-! PROOFS for 20_memory.md: which accesses reach a register, what an access in flight can change, and what
stops the machine. First the lemmas, in the order of the definitions they speak of. -/

namespace Sys2Proof.Machine

/-! ### The mapped offsets (20_memory.md R49, R50) -/

/-- Every register stands at a mapped multiple of 4. -/
theorem byteOffset_mapped (r : Reg) : r.byteOffset % 4 = 0 ∧ ¬ Spec.unmapped r.byteOffset := by
  unfold Spec.unmapped
  cases r with
  | keybuf k => simp only [Reg.byteOffset]; omega
  | _ => decide

/-- The words of 0x000 to 0x0A0 are registers, but for the one at 0x06C. -/
theorem regAt_below_keys : ∀ k : Fin 41, k ≠ 27 → (regAt (4 * k.val)).isSome = true := by decide

/-- Every mapped multiple of 4 in the window is a register: below 0x0A4 by the table, from 0x100 on a key
word. -/
theorem accessedReg_of_mapped {off : Nat} (window : off < 4096) (aligned : off % 4 = 0)
    (mapped : ¬ Spec.unmapped off) : ∃ r, accessedReg off 4 = some r := by
  unfold Spec.unmapped at mapped
  obtain low | ⟨above, below⟩ : off < 0x0A4 ∨ 0x100 ≤ off ∧ off < 0x140 := by omega
  · have table := regAt_below_keys ⟨off / 4, by omega⟩ fun hole => by
      have : off / 4 = 27 := congrArg Fin.val hole
      omega
    rw [show 4 * (off / 4) = off by omega] at table
    rw [accessedReg, if_pos ⟨rfl, aligned⟩]
    exact Option.isSome_iff_exists.mp table
  · refine ⟨.keybuf ⟨(off - 0x100) / 4, by omega⟩, accessedReg_eq_some.mpr ⟨rfl, ?_⟩⟩
    simp only [Reg.byteOffset]
    omega

/-- An access of another size, misaligned or at an unmapped offset reaches no register. -/
theorem accessedReg_of_bad {off size : Nat} (bad : size ≠ 4 ∨ off % 4 ≠ 0 ∨ Spec.unmapped off) :
    accessedReg off size = none := by
  refine Option.eq_none_iff_forall_ne_some.mpr fun r reached => ?_
  obtain ⟨rfl, rfl⟩ := accessedReg_eq_some.mp reached
  obtain ⟨aligned, mapped⟩ := byteOffset_mapped r
  obtain wrongSize | misaligned | hole := bad
  · exact wrongSize rfl
  · exact misaligned aligned
  · exact mapped hole

/-! ### Accesses that reach a register, and accesses that do not (R51) -/

/-- A read that reaches no register carries the data word 0. -/
theorem memRead_of_unreached {off size : Nat} (h : accessedReg off size = none) (s : State) :
    memRead off size s = .error 0 := by
  rw [memRead, h]

/-- A read that reaches no register is a bus error. -/
theorem hostAccess_read_unreached {off size : Nat} (h : accessedReg off size = none) (s : State) :
    hostAccess (.read off size) s = .fault (.busError off size) := by
  rw [hostAccess, memRead_of_unreached h]

/-- A write that reaches no register is a bus error. -/
theorem hostAccess_write_unreached {off size : Nat} (h : accessedReg off size = none) (v : Word) (s : State) :
    hostAccess (.write off size v) s = .fault (.busError off size) := by
  rw [hostAccess, memWrite, h, Option.map_none]

/-- A read that reaches a register answers. -/
theorem hostAccess_read_answers {off size : Nat} {r : Reg} (h : accessedReg off size = some r) (s : State) :
    ∃ t, hostAccess (.read off size) s = .next t := by
  obtain ⟨rfl, rfl⟩ := accessedReg_eq_some.mp h
  exact ⟨_, hostAccess_read r s⟩

/-- A write that reaches a register answers. -/
theorem hostAccess_write_answers {off size : Nat} {r : Reg} (h : accessedReg off size = some r) (v : Word)
    (s : State) : ∃ t, hostAccess (.write off size v) s = .next t := by
  obtain ⟨rfl, rfl⟩ := accessedReg_eq_some.mp h
  exact ⟨_, hostAccess_write r v s⟩

end Sys2Proof.Machine

namespace Sys2Proof.Proofs

open Sys2Proof.Machine Sys2Proof.Spec

/-- Settles O10: a bad access reaches no register, and any other 4-byte access does. -/
theorem badAccessIsBusError : Obligations.BadAccessIsBusError := by
  unfold Obligations.BadAccessIsBusError
  intro s off size v rest window
  refine ⟨fun bad => ?_, ?_⟩
  · have unreached := accessedReg_of_bad bad
    refine ⟨fun h => ⟨?_, memRead_of_unreached unreached s⟩, fun h => ?_⟩
    · exact (step_cons h).trans (hostAccess_read_unreached unreached _)
    · exact (step_cons h).trans (hostAccess_write_unreached unreached v _)
  · rintro ⟨rfl, aligned, mapped⟩
    obtain ⟨r, reached⟩ := accessedReg_of_mapped window aligned mapped
    refine ⟨fun h => ?_, fun h => ?_⟩ <;> rw [step_cons h]
    · exact hostAccess_read_answers reached _
    · exact hostAccess_write_answers reached v _

end Sys2Proof.Proofs

namespace Sys2Proof.Machine

/-! ### Every command answers (40_command.md R75, 60_exceptions.md R140) -/

/-- A command whose checks come first answers: with its first error, or with its results. -/
theorem checked_answers (check : Option CmdError) (s u : State) : ∃ t, checked check s (.next u) = .next t := by
  obtain ⟨e, -, failed⟩ | ⟨-, passed⟩ := checked_cases check s (.next u)
  · exact ⟨_, failed⟩
  · exact ⟨_, passed⟩

/-- A data symbol is refused, overflows the key or is taken (41_base32.md R95). -/
theorem symbolFed_answers (v : BitVec 5) (c : Byte) (s : State) : ∃ t, symbolFed v c s = .next t := by
  unfold symbolFed
  split
  · exact ⟨_, rfl⟩
  · split <;> exact ⟨_, rfl⟩

/-- Padding is refused or taken (R96). -/
theorem padFed_answers (c : Byte) (s : State) : ∃ t, padFed c s = .next t := by
  unfold padFed
  split
  case h_3 => split <;> exact ⟨_, rfl⟩
  all_goals exact ⟨_, rfl⟩

/-- B32CH answers for every character (R94). -/
theorem execB32ch_answers (c : Byte) (s : State) : ∃ t, execB32ch c s = .next t := by
  unfold execB32ch
  split
  · exact ⟨_, rfl⟩
  split
  · exact ⟨_, rfl⟩
  split
  case h_3 v _ => exact symbolFed_answers v c s
  case h_4 => exact padFed_answers c s
  all_goals exact ⟨_, rfl⟩

/-- B32FIN answers in every decoder state (R98). -/
theorem execB32fin_answers (s : State) : ∃ t, execB32fin s = .next t := by
  unfold execB32fin
  split
  case h_5 => split <;> exact ⟨_, rfl⟩
  all_goals exact ⟨_, rfl⟩

/-- Every command answers a next state, from every state. -/
theorem exec_answers (i : Instr) (s : State) : ∃ t, exec i s = .next t := by
  cases i with
  | nop | b32rst | ctrgen | trunc => exact ⟨_, rfl⟩
  | b32ch c => exact execB32ch_answers c s
  | b32fin => exact execB32fin_answers s
  | hmac | otpgen | div | payenc | payrec | paychk => exact checked_answers _ s _

/-- Every word answers, legal or not. -/
theorem execWord_answers (w : Word) (s : State) : ∃ t, execWord w s = .next t := by
  unfold execWord
  split
  · exact exec_answers _ s
  · exact ⟨_, rfl⟩

/-- The core's turn answers whenever a command in flight has its word latched (R73). -/
theorem coreTurn_answers {s : State} (latched : s.inflight = true → s.cur.isSome = true) :
    ∃ t, coreTurn s = .next t := by
  unfold coreTurn
  split
  next flying =>
    obtain ⟨w, cur⟩ := Option.isSome_iff_exists.mp (latched flying)
    obtain ⟨u, run⟩ := execWord_answers w s
    exact ⟨u.finish, by simp [complete, cur, run]⟩
  next => exact ⟨s, rfl⟩

end Sys2Proof.Machine

namespace Sys2Proof.Proofs

open Sys2Proof.Machine

/-- Settles O7, by the kinds of turn: the core's turn answers since a command in flight has its word, a reset
always answers, and a host access answers when it reaches a register. -/
theorem onlyBadAccessesStop : Obligations.OnlyBadAccessesStop := by
  unfold Obligations.OnlyBadAccessesStop
  rintro s ⟨-, flight, -, -⟩
  have latched (flying : s.inflight = true) : s.cur.isSome = true := (flight flying).1
  cases h : s.schedule with
  | nil => exact .inl (step_nil h ▸ coreTurn_answers latched)
  | cons turn rest =>
    rw [step_cons h]
    cases turn with
    | core => exact .inl (coreTurn_answers latched)
    | rst => exact .inl ⟨_, rfl⟩
    | host access =>
      cases access with
      | read off size =>
        cases reached : accessedReg off size with
        | some r => exact .inl (hostAccess_read_answers reached _)
        | none => exact .inr ⟨off, size, rest, .inl rfl, reached, hostAccess_read_unreached reached _⟩
      | write off size v =>
        cases reached : accessedReg off size with
        | some r => exact .inl (hostAccess_write_answers reached v _)
        | none => exact .inr ⟨off, size, rest, .inr ⟨v, rfl⟩, reached, hostAccess_write_unreached reached v _⟩

end Sys2Proof.Proofs

namespace Sys2Proof.Machine

/-! ### What an access shows and leaves unchanged (R52, R53, R55) -/

/-- No register shows the turns left or what the host has read (log entries 1 and 2). -/
theorem readReg_with_schedule_rdata (r : Reg) (s : State) (rest : List Turn) (word : Option Word) :
    readReg r { s with schedule := rest, rdata := word } = readReg r s := by
  cases r <;> rfl

/-- Only CTRL and STATUS show IE, DONE and WIGN (10_state.md R21, R22). -/
theorem readReg_with_flags {r : Reg} (notCtrl : r ≠ .ctrl) (notStatus : r ≠ .status) (s : State)
    (ie done wign : Bool) : readReg r { s with ie := ie, done := done, wign := wign } = readReg r s := by
  cases r with
  | ctrl => exact absurd rfl notCtrl
  | status => exact absurd rfl notStatus
  | _ => rfl

/-- With INFLIGHT 1 a write of a register without a rule of its own sets WIGN only (R53). -/
theorem writeReg_busy {r : Reg} {s : State} (busy : s.inflight = true) (notCtrl : r ≠ .ctrl)
    (notStatus : r ≠ .status) (v : Word) : writeReg r v s = { s with wign := true } := by
  rw [writeReg, if_neg notCtrl, if_neg notStatus, if_pos busy]

/-- With INFLIGHT 1 a write that is no soft reset changes IE, DONE and WIGN at most. -/
theorem writeReg_busy_frame {r : Reg} {v : Word} {s : State} (busy : s.inflight = true)
    (noReset : r = .ctrl → v.getLsbD 1 = false) :
    ∃ ie done wign, writeReg r v s = { s with ie := ie, done := done, wign := wign } := by
  by_cases ctrl : r = .ctrl
  · subst ctrl
    rw [writeReg_ctrl, noReset rfl]
    exact ⟨_, _, _, rfl⟩
  by_cases status : r = .status
  · subst status
    rw [writeReg_status]
    exact ⟨_, _, _, rfl⟩
  · rw [writeReg_busy busy ctrl status]
    exact ⟨_, _, _, rfl⟩

/-- With INFLIGHT 1 a host access that is no soft reset changes IE, DONE, WIGN and the word read at most. -/
theorem hostAccess_busy_frame {a : HostAccess} {s t : State} (busy : s.inflight = true)
    (h : hostAccess a s = .next t) (noReset : ∀ v : Word, a = .write 0x008 4 v → v.getLsbD 1 = false) :
    ∃ ie done wign rdata, t = { s with ie := ie, done := done, wign := wign, rdata := rdata } := by
  obtain ⟨r, -, rfl⟩ | ⟨r, v, rfl, rfl⟩ := hostAccess_cases h
  · exact ⟨_, _, _, _, rfl⟩
  · obtain ⟨ie, done, wign, eq⟩ := writeReg_busy_frame (r := r) (v := v) busy fun ctrl => noReset v (ctrl ▸ rfl)
    exact ⟨ie, done, wign, s.rdata, eq⟩

end Sys2Proof.Machine

namespace Sys2Proof.Proofs

open Sys2Proof.Machine

/-- Settles O17: the access changes no field that another register shows. -/
theorem operandsAreFrozenInFlight : Obligations.OperandsAreFrozenInFlight := by
  unfold Obligations.OperandsAreFrozenInFlight
  intro s t a rest busy h answered noReset
  rw [step_cons h] at answered
  obtain ⟨ie, done, wign, rdata, rfl⟩ :=
    hostAccess_busy_frame (s := { s with schedule := rest }) busy answered noReset
  refine ⟨fun r notCtrl notStatus => ?_, busy, rfl⟩
  exact (readReg_with_schedule_rdata r { s with ie := ie, done := done, wign := wign } rest rdata).trans
    (readReg_with_flags notCtrl notStatus s ie done wign)

/-- Settles O11: the step puts the register's word in `rdata`, and no register shows `rdata` or the turns
left. -/
theorem readHasNoSideEffect : Obligations.ReadHasNoSideEffect := by
  unfold Obligations.ReadHasNoSideEffect
  intro s r rest h
  constructor
  · rw [step_cons h]
    refine (hostAccess_read r _).trans ?_
    rw [readReg_with_schedule]
  · exact readReg_with_schedule_rdata r s rest _

/-- Settles O15: the step is a write while busy. -/
theorem busyWriteOnlySetsWign : Obligations.BusyWriteOnlySetsWign := by
  unfold Obligations.BusyWriteOnlySetsWign
  intro s r v rest busy notCtrl notStatus h
  rw [step_cons h]
  refine (hostAccess_write r v _).trans (congrArg Host.Outcome.next ?_)
  exact writeReg_busy (s := { s with schedule := rest }) busy notCtrl notStatus v

end Sys2Proof.Proofs
end

section
/-! PROOFS for 30_encoding.md: the decoder inverts the encoder, and its words are the legal words and the
words of the mask and match table. Then what becomes of a word that is not legal. -/

namespace Sys2Proof

open Sys2Proof.Spec

/-! ### The fields of a word (30_encoding.md R60) -/

/-- Words with the same three fields are the same word. -/
theorem cmdFields_injective : Function.Injective cmdFields :=
  Function.LeftInverse.injective cmdWord_cmdFields

/-- A word is a command's word when its fields are the command's. -/
theorem eq_encode_iff {w : Word} {i : Instr} :
    w = encode i ↔
      (cmdFields w).rsv = 0 ∧ (cmdFields w).op = opcode i ∧ (cmdFields w).arg8 = argument i := by
  rw [← cmdFields_injective.eq_iff, cmdFields_encode]
  exact (Cmd32.mk.injEq ..).to_iff.trans (by tauto)

/-! ### The opcode map (R63) -/

/-- The commands listed for a character are all but B32CH of another character. -/
theorem mem_commands {i : Instr} {c : Byte} : i ∈ commands c ↔ (opcode i = 0x11 → argument i = c) := by
  cases i <;> simp [commands, opcode, argument]

/-- Only B32CH has an argument. -/
theorem argument_eq_zero {i : Instr} (h : opcode i ≠ 0x11) : argument i = 0 := by
  cases i with
  | b32ch c => exact absurd rfl h
  | _ => rfl

/-- The command found for an opcode is the listed command with that opcode. -/
theorem commandOf_eq_some {op : BitVec 8} {c : Byte} {i : Instr} :
    commandOf op c = some i ↔ i ∈ commands c ∧ opcode i = op := by
  constructor
  · intro h
    exact ⟨List.mem_of_find?_eq_some h, beq_iff_eq.mp (List.find?_some (p := fun i => opcode i == op) h)⟩
  · rintro ⟨listed, rfl⟩
    cases i with
    | b32ch c' =>
      obtain rfl : c' = c := mem_commands.mp listed rfl
      rfl
    | _ => rfl

/-- The commands listed for a character have different opcodes. -/
theorem eq_of_opcode_eq {i j : Instr} {c : Byte} (hi : i ∈ commands c) (hj : j ∈ commands c)
    (h : opcode i = opcode j) : i = j :=
  Option.some.inj ((commandOf_eq_some.mpr ⟨hi, h⟩).symm.trans (commandOf_eq_some.mpr ⟨hj, rfl⟩))

/-- The twelve opcodes of R64 are those of the commands, whatever the character. -/
theorem map_opcode_commands (c : Byte) : (commands c).map opcode =
    [0x00, 0x10, 0x11, 0x12, 0x20, 0x21, 0x22, 0x23, 0x30, 0x31, 0x32, 0x33] := rfl

/-- Every command's opcode is the opcode of a listed command. -/
theorem exists_listed (i : Instr) (c : Byte) : ∃ j ∈ commands c, opcode j = opcode i := by
  have own : opcode i ∈ (commands (argument i)).map opcode :=
    List.mem_map_of_mem (mem_commands.mpr fun _ => rfl)
  exact List.mem_map.mp (map_opcode_commands c ▸ map_opcode_commands (argument i) ▸ own)

/-! ### The decoder and the legal words (R64) -/

/-- The decoder accepts a word past its three checks. -/
theorem decode_eq_ok {w : Word} {i : Instr} :
    decode w = .ok i ↔
      (cmdFields w).rsv = 0 ∧ commandOf (cmdFields w).op (cmdFields w).arg8 = some i ∧
        ((cmdFields w).op = 0x11 ∨ (cmdFields w).arg8 = 0) := by
  unfold decode
  dsimp only
  by_cases rsv : (cmdFields w).rsv = 0
  · rw [if_neg (not_not_intro rsv), and_iff_right rsv]
    cases commandOf (cmdFields w).op (cmdFields w).arg8 with
    | none => simp only [reduceCtorEq, false_and]
    | some j =>
      by_cases arg : (cmdFields w).op = 0x11 ∨ (cmdFields w).arg8 = 0
      · simp only [if_neg (not_and_or.mpr (arg.imp not_not_intro not_not_intro)), arg, and_true,
          Except.ok.injEq, Option.some.injEq]
      · simp only [if_pos (not_or.mp arg), arg, and_false, reduceCtorEq]
  · simp only [if_pos rsv, rsv, false_and, reduceCtorEq]

/-- The decoder answers a command on that command's word and on no other. -/
theorem decode_eq_ok_iff {w : Word} {i : Instr} : decode w = .ok i ↔ w = encode i := by
  rw [decode_eq_ok, commandOf_eq_some, eq_encode_iff]
  constructor
  · rintro ⟨rsv, ⟨listed, op⟩, arg⟩
    refine ⟨rsv, op.symm, ?_⟩
    by_cases char : opcode i = 0x11
    · exact (mem_commands.mp listed char).symm
    · rw [argument_eq_zero char]
      exact arg.resolve_left (op ▸ char)
  · rintro ⟨rsv, op, arg⟩
    refine ⟨rsv, ⟨mem_commands.mpr fun _ => arg.symm, op.symm⟩, ?_⟩
    by_cases char : opcode i = 0x11
    · exact .inl (op.trans char)
    · exact .inr (arg.trans (argument_eq_zero char))

/-- No two commands have the same word. -/
theorem encode_injective : Function.Injective encode := fun _ _ same =>
  Except.ok.inj ((decode_eq_ok_iff.mpr rfl).symm.trans (decode_eq_ok_iff.mpr same))

/-- The legal words are the words of the commands. -/
theorem legalWord_iff {w : Word} : legalWord w ↔ ∃ i, w = encode i := by
  constructor
  · rintro ⟨rsv, assigned, arg⟩
    obtain ⟨i, listed, op⟩ := List.mem_map.mp (map_opcode_commands (cmdFields w).arg8 ▸ assigned)
    refine ⟨i, decode_eq_ok_iff.mp (decode_eq_ok.mpr ⟨rsv, ?_, arg⟩)⟩
    exact commandOf_eq_some.mpr ⟨listed, op⟩
  · rintro ⟨i, word⟩
    obtain ⟨rsv, found, arg⟩ := decode_eq_ok.mp (decode_eq_ok_iff.mpr word)
    obtain ⟨listed, op⟩ := commandOf_eq_some.mp found
    have assigned : (cmdFields w).op ∈ (commands (cmdFields w).arg8).map opcode :=
      op ▸ List.mem_map_of_mem listed
    exact ⟨rsv, map_opcode_commands _ ▸ assigned, arg⟩

/-- A word that is not legal is rejected. -/
theorem decode_illegal {w : Word} (h : ¬ legalWord w) : ∃ e, decode w = .error e := by
  cases answer : decode w with
  | error e => exact ⟨e, rfl⟩
  | ok i => exact absurd (legalWord_iff.mpr ⟨i, decode_eq_ok_iff.mp answer⟩) h

/-! ### The mask and match table (R64) -/

/-- A command's row: B32CH leaves ARG8 open, every other command fixes the whole word. -/
def commandRow (i : Instr) : OpcodeRow :=
  ⟨i.mnemonic, if opcode i = 0x11 then 0xFFFF00FF else 0xFFFFFFFF, encode i⟩

/-- The table is the rows of the commands, B32CH standing with the character 0. -/
theorem opcodeRows_eq : opcodeRows = (commands 0).map commandRow := by decide

/-- The mask of B32CH clears ARG8 and nothing else. -/
theorem cmdFields_and_mask (w : Word) :
    cmdFields (w &&& 0xFFFF00FF) = { cmdFields w with arg8 := 0 } := by
  simp only [cmdFields, BitVec.extractLsb'_and, Cmd32.mk.injEq]
  exact ⟨BitVec.and_allOnes, BitVec.and_zero, BitVec.and_allOnes⟩

/-- The words a listed command's row matches are those of the commands with its opcode. -/
theorem commandRow_matches {i : Instr} (listed : i ∈ commands 0) {w : Word} :
    w &&& (commandRow i).mask = (commandRow i).pattern ↔ ∃ j, opcode j = opcode i ∧ w = encode j := by
  by_cases char : opcode i = 0x11
  · have matched : w &&& (commandRow i).mask = (commandRow i).pattern ↔
        (cmdFields w).rsv = 0 ∧ (cmdFields w).op = 0x11 := by
      have noChar : argument i = 0 := mem_commands.mp listed char
      simp only [commandRow, char, if_true, eq_encode_iff, cmdFields_and_mask, noChar, and_true]
    rw [matched]
    constructor
    · rintro ⟨rsv, op⟩
      exact ⟨.b32ch (cmdFields w).arg8, char.symm, eq_encode_iff.mpr ⟨rsv, op, rfl⟩⟩
    · rintro ⟨j, same, word⟩
      obtain ⟨rsv, op, -⟩ := eq_encode_iff.mp word
      exact ⟨rsv, op.trans (same.trans char)⟩
  · have whole : w &&& (commandRow i).mask = w := by
      simp only [commandRow, if_neg char]
      exact BitVec.and_allOnes
    rw [whole]
    constructor
    · exact fun word => ⟨i, rfl, word⟩
    · rintro ⟨j, same, word⟩
      have other : j ∈ commands 0 := mem_commands.mpr fun h => absurd (same.symm.trans h) char
      rw [word, eq_of_opcode_eq other listed same]
      rfl

/-- The words the table matches are the words of the commands. -/
theorem exists_row_matches {w : Word} :
    (∃ row ∈ opcodeRows, w &&& row.mask = row.pattern) ↔ ∃ i, w = encode i := by
  simp only [opcodeRows_eq, List.mem_map, exists_exists_and_eq_and]
  constructor
  · rintro ⟨i, listed, hit⟩
    obtain ⟨j, -, word⟩ := (commandRow_matches listed).mp hit
    exact ⟨j, word⟩
  · rintro ⟨j, word⟩
    obtain ⟨i, listed, same⟩ := exists_listed j 0
    exact ⟨i, listed, (commandRow_matches listed).mpr ⟨j, same.symm, word⟩⟩

/-- Two rows that match one word are the same row: the word's command has the opcode of both. -/
theorem row_unique {w : Word} {row row' : OpcodeRow} (h : row ∈ opcodeRows) (h' : row' ∈ opcodeRows)
    (hit : w &&& row.mask = row.pattern) (hit' : w &&& row'.mask = row'.pattern) : row = row' := by
  rw [opcodeRows_eq] at h h'
  obtain ⟨i, listed, rfl⟩ := List.mem_map.mp h
  obtain ⟨i', listed', rfl⟩ := List.mem_map.mp h'
  obtain ⟨j, op, rfl⟩ := (commandRow_matches listed).mp hit
  obtain ⟨j', op', word⟩ := (commandRow_matches listed').mp hit'
  obtain rfl := encode_injective word
  rw [eq_of_opcode_eq listed listed' (op.symm.trans op')]

end Sys2Proof

namespace Sys2Proof.Machine

open Sys2Proof.Spec

/-! ### Issue and completion of a word (40_command.md R73, R75) -/

/-- With INFLIGHT 0 a write of CMD issues the word. -/
theorem step_issue {s : State} {w : Word} {rest : List Turn} (idle : s.inflight = false)
    (h : s.schedule = .host (.write 0x010 4 w) :: rest) :
    step s = .next (issue w { s with schedule := rest }) := by
  rw [step_cons h]
  refine (hostAccess_write .cmd w _).trans ?_
  simp [writeReg, idle]

/-- The core's turn completes the word in flight. -/
theorem step_completes {s : State} {w : Word} {rest : List Turn} (flying : s.inflight = true)
    (latched : s.cur = some w) (h : s.schedule = .core :: rest) :
    step s = finishResult (execWord w { s with schedule := rest }) := by
  rw [step_cons h]
  simp [runTurn, coreTurn, complete, flying, latched]

/-- A word that is not legal commits E_ILLEGAL with the word as its detail (R65). -/
theorem execWord_illegal {w : Word} (h : ¬ legalWord w) (s : State) :
    execWord w s = .next (s.withError ⟨.illegal, w⟩) := by
  obtain ⟨e, rejected⟩ := decode_illegal h
  simp [execWord, rejected, raiseError]

end Sys2Proof.Machine

namespace Sys2Proof.Proofs

open Sys2Proof.Machine

/-- Settles O1, from the decoder's three checks and the fields of a command's word. -/
theorem decodeEncodeAgree : Obligations.DecodeEncodeAgree := fun _ _ => decode_eq_ok_iff

/-- Settles O2: a word that decodes, a legal word and a word of the table are each a command's word. -/
theorem legalWordsAreTheTablesWords : Obligations.LegalWordsAreTheTablesWords := by
  unfold Obligations.LegalWordsAreTheTablesWords
  simp only [decode_eq_ok_iff]
  exact ⟨fun _ => legalWord_iff.symm, fun _ => exists_row_matches.symm, fun _ _ _ => row_unique⟩

/-- Settles O3: the legal samples are the words of their commands, and the two others are evaluated. -/
theorem sampleWordsDecode : Obligations.SampleWordsDecode := by
  unfold Obligations.SampleWordsDecode
  refine ⟨fun c => ?_, ?_, ?_, ?_, ?_, ?_, by decide, by decide⟩
  all_goals exact decode_eq_ok_iff.mpr rfl

/-- Settles O22: the write of CMD issues the word, and the core's turn commits E_ILLEGAL. -/
theorem illegalWordCompletesWithError : Obligations.IllegalWordCompletesWithError := by
  unfold Obligations.IllegalWordCompletesWithError
  intro s w rest idle illegal h
  refine ⟨_, step_issue idle h, rfl, rfl, ?_⟩
  rw [step_completes rfl rfl rfl, execWord_illegal illegal]
  rfl

end Sys2Proof.Proofs
end

section
/-! PROOFS for 40_command.md: what the CMD write and the core's turn do, then why no delay changes a result and
every schedule without a bad access runs to its end. -/

namespace Sys2Proof.Machine

/-! ### The core's turn (40_command.md R75, 60_exceptions.md R158) -/

/-- An idle core keeps all state. -/
theorem coreTurn_idle {s : State} (idle : s.inflight = false) : coreTurn s = .next s := by
  simp [coreTurn, idle]

/-- With a word in flight the core's turn ends what the word commits with INFLIGHT 0 and DONE 1. -/
theorem coreTurn_completes {s t : State} {w : Word} (flying : s.inflight = true) (latched : s.cur = some w)
    (run : execWord w s = .next t) : coreTurn s = .next t.finish := by
  rw [coreTurn, if_pos flying, complete, latched]
  exact finishResult_eq_next.mpr ⟨t, run, rfl⟩

/-- A step whose turn is the core's ends what the word in flight commits with INFLIGHT 0 and DONE 1. -/
theorem step_core_completes {s t : State} {w : Word} {rest : List Turn} (flying : s.inflight = true)
    (latched : s.cur = some w) (h : s.schedule = .core :: rest)
    (run : execWord w { s with schedule := rest } = .next t) : step s = .next t.finish :=
  (step_completes flying latched h).trans (finishResult_eq_next.mpr ⟨t, run, rfl⟩)

/-- A word that decodes commits what its command commits. -/
theorem execWord_of_decode {w : Word} {i : Instr} (decoded : decode w = .ok i) (s : State) :
    execWord w s = exec i s := by
  rw [execWord, decoded]

end Sys2Proof.Machine

namespace Sys2Proof.Proofs

open Sys2Proof.Machine

/-- Settles O20: an idle write of CMD is an issue, and a busy one is a write like any other. -/
theorem issueLatchesTheWord : Obligations.IssueLatchesTheWord := by
  unfold Obligations.IssueLatchesTheWord
  intro s w rest h
  constructor
  · intro idle
    have issued := step_issue idle h
    refine ⟨issued, fun t answered => ?_⟩
    obtain rfl := Host.Outcome.next.inj (issued.symm.trans answered)
    simp [irq]
  · intro busy
    exact busyWriteOnlySetsWign s .cmd w rest busy (by decide) (by decide) h

/-- Settles O21: both turns are the core's, and a word that decodes commits its command. -/
theorem stepRunsTheDecodedCommand : Obligations.StepRunsTheDecodedCommand := by
  unfold Obligations.StepRunsTheDecodedCommand
  refine ⟨?scheduled, ?unscheduled, exec_answers, ?idle⟩
  case scheduled =>
    intro s t i w rest flying latched decoded h run
    exact step_core_completes flying latched h ((execWord_of_decode decoded _).trans run)
  case unscheduled =>
    intro s t i w flying latched decoded h run
    exact (step_nil h).trans
      (coreTurn_completes flying latched ((execWord_of_decode decoded _).trans run))
  case idle =>
    intro s rest idle h
    exact (step_cons h).trans (coreTurn_idle idle)

end Sys2Proof.Proofs

namespace Sys2Proof

/-! ### NOP (40_command.md R79) -/

/-- Opcode 0x00 is NOP's alone (30_encoding.md R63). -/
theorem opcode_eq_zero {i : Instr} : opcode i = 0 ↔ i = .nop := by
  cases i <;> simp [opcode]

/-- A word with opcode 0x00 and anything else set is no command's word. -/
theorem ne_encode_of_opcode_zero {w : Word} (op : w.extractLsb' 0 8 = 0) (ne : w ≠ 0) :
    ¬ ∃ i, w = encode i := by
  rintro ⟨i, word⟩
  obtain ⟨-, own, -⟩ := eq_encode_iff.mp word
  obtain rfl := opcode_eq_zero.mp (own.symm.trans op)
  exact ne word

end Sys2Proof

namespace Sys2Proof.Proofs

open Sys2Proof.Machine

/-- Settles O23: the word 0 is NOP's and no other word with its opcode is a command's; issue and completion
add their common effects to a commit that is the state itself. -/
theorem nopOnlyCompletes : Obligations.NopOnlyCompletes := by
  unfold Obligations.NopOnlyCompletes
  refine ⟨by decide, fun _ => rfl, fun w op ne => ?_, fun s rest idle h => ?_⟩
  · have noCommand := ne_encode_of_opcode_zero op ne
    simp only [legalWord_iff, decode_eq_ok_iff]
    exact ⟨noCommand, noCommand⟩
  · have completed : step (issue 0 { s with schedule := .core :: rest }) =
        .next (issue 0 { s with schedule := rest }).finish :=
      step_core_completes rfl rfl rfl (execWord_of_decode (decode_eq_ok_iff.mpr rfl : decode 0 = .ok .nop) _)
    rw [core_run_succ (step_issue idle h), core_run_succ completed]
    simp [Host.Core.run, State.finish, issue, idle]

end Sys2Proof.Proofs

namespace Sys2Proof.Machine

/-! ### No command looks at the turns left or at the word the host has read (log entries 1 and 2) -/

/-- The host's side of the state, given anew: the turns to come and the word read. -/
def State.withHostSide (turns : List Turn) (word : Option Word) (s : State) : State :=
  { s with schedule := turns, rdata := word }

/-- The result with its next state, where it has one, changed by `f`. -/
def onNext (f : State → State) : Result → Result
  | .next s => .next (f s)
  | .fault r => .fault r
  | .refused r => .refused r

/-- `onNext` goes into both sides of a choice. -/
theorem ite_onNext {f : State → State} {p : Prop} [Decidable p] {a b a' b' : Result} (ha : a' = onNext f a)
    (hb : b' = onNext f b) : (if p then a' else b') = onNext f (if p then a else b) := by
  rw [ha, hb, apply_ite (onNext f)]

section
variable (turns : List Turn) (word : Option Word)

@[simp] theorem State.withHostSide_b32stat (s : State) :
    (s.withHostSide turns word).b32stat = s.b32stat := rfl

/-- A checked command does not see the host's side when neither its check nor its results do. -/
theorem checked_withHostSide {check check' : Option CmdError} {s u u' : State} (sameCheck : check' = check)
    (sameResults : u' = u.withHostSide turns word) :
    checked check' (s.withHostSide turns word) (.next u') =
      onNext (State.withHostSide turns word) (checked check s (.next u)) := by
  subst sameCheck sameResults
  cases check' <;> rfl

/-- The packer does not see the host's side (41_base32.md R95). -/
theorem pack_withHostSide (v : BitVec 5) (s : State) :
    pack v (s.withHostSide turns word) = (pack v s).map (State.withHostSide turns word) := by
  simp only [pack, apply_ite (Option.map _)]
  exact if_congr Iff.rfl rfl (if_congr Iff.rfl rfl rfl)

/-- A data symbol is taken or refused alike (R94). -/
theorem symbolFed_withHostSide (v : BitVec 5) (c : Byte) (s : State) :
    symbolFed v c (s.withHostSide turns word) =
      onNext (State.withHostSide turns word) (symbolFed v c s) := by
  rw [symbolFed, symbolFed, pack_withHostSide]
  refine ite_onNext rfl ?_
  cases pack v s <;> rfl

/-- Padding is taken or refused alike (R96). -/
theorem padFed_withHostSide (c : Byte) (s : State) :
    padFed c (s.withHostSide turns word) = onNext (State.withHostSide turns word) (padFed c s) := by
  rw [padFed, padFed, State.withHostSide_b32stat]
  cases s.b32stat.state with
  | data => exact ite_onNext rfl rfl
  | _ => rfl

/-- B32CH commits alike for every character (R94). -/
theorem execB32ch_withHostSide (c : Byte) (s : State) :
    execB32ch c (s.withHostSide turns word) = onNext (State.withHostSide turns word) (execB32ch c s) := by
  rw [execB32ch, execB32ch]
  refine ite_onNext rfl (ite_onNext rfl ?_)
  cases cls c with
  | sym v => exact symbolFed_withHostSide turns word v c s
  | padc => exact padFed_withHostSide turns word c s
  | ws | bad => rfl

/-- B32FIN commits alike in every decoder state (R98). -/
theorem execB32fin_withHostSide (s : State) :
    execB32fin (s.withHostSide turns word) = onNext (State.withHostSide turns word) (execB32fin s) := by
  rw [execB32fin, execB32fin, State.withHostSide_b32stat]
  cases s.b32stat.state with
  | data => exact ite_onNext rfl rfl
  | _ => rfl

/-- No command sees the host's side. -/
theorem exec_withHostSide (i : Instr) (s : State) :
    exec i (s.withHostSide turns word) = onNext (State.withHostSide turns word) (exec i s) := by
  cases i with
  | nop | b32rst | ctrgen | trunc => rfl
  | b32ch c => exact execB32ch_withHostSide turns word c s
  | b32fin => exact execB32fin_withHostSide turns word s
  | hmac | otpgen | div | payenc | payrec | paychk => exact checked_withHostSide turns word rfl rfl

/-- A word, legal or not, commits alike whatever turns are left and whatever word was read. -/
theorem execWord_withHostSide {w : Word} {s t : State} (run : execWord w s = .next t) :
    execWord w (s.withHostSide turns word) = .next (t.withHostSide turns word) := by
  have alike : execWord w (s.withHostSide turns word) =
      onNext (State.withHostSide turns word) (execWord w s) := by
    unfold execWord
    cases decode w with
    | ok i => exact exec_withHostSide turns word i s
    | error e => rfl
  rw [alike, run]
  rfl

end

/-- A commit leaves the turns to come alone: it would be the same with them put back. -/
theorem execWord_schedule {w : Word} {s t : State} (run : execWord w s = .next t) :
    t.schedule = s.schedule := by
  have putBack : execWord w s = .next (t.withHostSide s.schedule s.rdata) := execWord_withHostSide _ _ run
  rw [Host.Outcome.next.inj (run.symm.trans putBack)]
  rfl

/-! ### POLL (30_encoding.md R66) -/

/-- Each read of STATUS takes its turn and shows STATUS as it is. -/
theorem step_status_read (s : State) (rest : List Turn) :
    step { s with schedule := hostRd .status :: rest } =
      .next { s with schedule := rest, rdata := some (statusWord s) } :=
  (Proofs.readHasNoSideEffect { s with schedule := hostRd .status :: rest } .status rest rfl).1

/-- The state after POLL when the word commits `t`: `t` completed, no turn left, its STATUS the last word read. -/
def polled (t : State) : State :=
  { t.finish with schedule := [], rdata := some (statusWord t.finish) }

/-- The last two turns of POLL: the core completes the word, and the last read shows STATUS. -/
theorem run_hostPoll_zero {s t : State} {w : Word} (flying : s.inflight = true) (latched : s.cur = some w)
    (run : execWord w { s with schedule := [] } = .next t) :
    Sys2Proof.core.run 2 { s with schedule := hostPoll 0 } = .next (polled t) := by
  have committed := execWord_withHostSide [hostRd .status] s.rdata run
  have completed := step_core_completes (s := { s with schedule := hostPoll 0 }) flying latched rfl committed
  have shown := step_status_read (t.withHostSide [] s.rdata).finish []
  exact (core_run_succ completed 1).trans (core_run_succ shown 0)

/-- POLL with any number of reads before the core's turn: each changes only the word read, which no commit
sees. -/
theorem run_hostPoll (n : Nat) {s t : State} {w : Word} (flying : s.inflight = true) (latched : s.cur = some w)
    (run : execWord w { s with schedule := [] } = .next t) :
    Sys2Proof.core.run (n + 2) { s with schedule := hostPoll n } = .next (polled t) := by
  induction n generalizing s t with
  | zero => exact run_hostPoll_zero flying latched run
  | succ n ih =>
    have shown := step_status_read s (hostPoll n)
    have committed := execWord_withHostSide [] (some (statusWord s)) run
    exact (core_run_succ shown (n + 2)).trans
      (ih (s := { s with rdata := some (statusWord s) }) (t := t.withHostSide [] (some (statusWord s)))
        flying latched committed)

/-! ### A schedule runs to its end (40_command.md R78, 70_reset_and_hazards.md R172) -/

/-- After the core's turn no command is in flight. -/
theorem coreTurn_lands {s t : State} (h : coreTurn s = .next t) : t.inflight = false := by
  obtain ⟨idle, rfl⟩ | ⟨-, w, u, -, -, rfl⟩ := coreTurn_cases h
  · exact idle
  · rfl

/-- The core's turn leaves the turns to come alone. -/
theorem coreTurn_schedule {s t : State} (h : coreTurn s = .next t) : t.schedule = s.schedule := by
  obtain ⟨-, rfl⟩ | ⟨-, w, u, -, run, rfl⟩ := coreTurn_cases h
  · rfl
  · exact (State.finish_schedule u).trans (execWord_schedule run)

/-- A write of a register leaves the turns to come alone. -/
theorem writeReg_schedule (r : Reg) (v : Word) (s : State) : (writeReg r v s).schedule = s.schedule := by
  obtain ⟨-, -, eq⟩ | ⟨-, -, eq⟩ | ⟨-, eq⟩ | ⟨-, -, -, eq⟩ | ⟨-, -, eq⟩ | ⟨-, -, -, -, eq⟩ :=
    writeReg_cases r v s <;> simp [eq]

/-- A step takes one turn, where there is one. -/
theorem step_schedule {s t : State} (h : step s = .next t) : t.schedule = s.schedule.tail := by
  obtain ⟨left, turn⟩ | ⟨rest, left, turn⟩ | ⟨rest, left, rfl⟩ | ⟨a, rest, left, turn⟩ := step_cases h <;>
    rw [left]
  · exact (coreTurn_schedule turn).trans left
  · exact coreTurn_schedule turn
  · rfl
  · obtain ⟨r, -, rfl⟩ | ⟨r, v, -, rfl⟩ := hostAccess_cases turn
    · rfl
    · exact writeReg_schedule r v _

/-- Where the next turn is no bad access, a step answers, keeps the invariant and takes that turn. -/
theorem step_of_valid {s : State} (inv : s.Inv) (good : ∀ x ∈ s.schedule, x.valid = true) :
    ∃ t, step s = .next t ∧ t.Inv ∧ t.schedule = s.schedule.tail := by
  obtain ⟨t, answered⟩ | ⟨off, size, rest, bad, unreached, -⟩ := Proofs.onlyBadAccessesStop s inv
  · exact ⟨t, answered, Proofs.stepKeepsInvariant s t inv answered, step_schedule answered⟩
  · obtain left | ⟨v, left⟩ := bad
    all_goals
      have reached := good _ (left ▸ List.mem_cons_self)
      simp [Turn.valid, HostAccess.valid, unreached] at reached

/-- A schedule without a bad access runs to its end: each turn takes one step, and the core's turn that follows
lands what is in flight. -/
theorem run_to_end (turns : List Turn) {s : State} (h : s.schedule = turns) (inv : s.Inv)
    (good : ∀ x ∈ turns, x.valid = true) :
    ∃ t, Sys2Proof.core.run (turns.length + 1) s = .next t ∧ t.runEnded = true ∧ t.Inv := by
  induction turns generalizing s with
  | nil =>
    obtain ⟨t, answered, kept, left⟩ := step_of_valid inv (h ▸ good)
    have landed := coreTurn_lands (step_nil h ▸ answered)
    exact ⟨t, core_run_succ answered 0, by simp [State.runEnded, left, h, landed], kept⟩
  | cons turn rest ih =>
    obtain ⟨t, answered, kept, left⟩ := step_of_valid inv (h ▸ good)
    rw [List.length_cons, core_run_succ answered]
    exact ih (by rw [left, h, List.tail_cons]) kept fun x later => good x (List.mem_cons_of_mem _ later)

end Sys2Proof.Machine

namespace Sys2Proof.Proofs

open Sys2Proof.Machine

/-- Settles O9, by induction on the number of reads: none of them changes what the word commits. -/
theorem pollingDelayChangesNothing : Obligations.PollingDelayChangesNothing := by
  unfold Obligations.PollingDelayChangesNothing
  intro n s t w flying latched run
  have noTurnLeft : t.schedule = [] := execWord_schedule run
  rw [run_hostPoll n flying latched run, polled, ← noTurnLeft]
  rfl

/-- Settles O8, by induction on the schedule: every step answers, keeps the invariant and takes one turn. -/
theorem everyGoodScheduleRunsToItsEnd : Obligations.EveryGoodScheduleRunsToItsEnd :=
  fun s inv good => run_to_end s.schedule rfl inv good

end Sys2Proof.Proofs
end

section
/-! PROOFS for 41_base32.md. First what each class of character does to the decoder (R91, R94), said once,
then the statements on one character and on B32FIN. -/

namespace Sys2Proof.Machine

open Sys2Proof.Spec

/-! ### The character mapper (R91) -/

/-- Every alphabet character maps to its symbol. -/
@[simp] theorem cls_base32Char (v : BitVec 5) : cls (base32Char v.toNat) = .sym v := by
  revert v
  decide

/-- Only alphabet characters and lower-case letters are symbols. -/
theorem eq_of_cls_sym {c : Byte} {v : BitVec 5} (h : cls c = .sym v) :
    (∃ u : Fin 32, c = base32Char u.val) ∨ ∃ u : Fin 26, c = BitVec.ofNat 8 (0x61 + u.val) := by
  unfold cls at h
  split at h
  next upper =>
    refine .inl ⟨⟨c.toNat - 0x41, by omega⟩, ?_⟩
    simp only [base32Char, if_pos (show c.toNat - 0x41 < 26 by omega)]
    exact BitVec.eq_of_toNat_eq (by simp; omega)
  split at h
  next lower =>
    refine .inr ⟨⟨c.toNat - 0x61, by omega⟩, BitVec.eq_of_toNat_eq ?_⟩
    simp; omega
  split at h
  next digit =>
    refine .inl ⟨⟨c.toNat - 0x32 + 26, by omega⟩, ?_⟩
    simp only [base32Char, if_neg (show ¬ c.toNat - 0x32 + 26 < 26 by omega)]
    exact BitVec.eq_of_toNat_eq (by simp; omega)
  · split_ifs at h

/-! ### B32CH by the class of its character (R94) -/

/-- ERRINFO of E_DECODE, its INDEX the low half of B32CNT (60_exceptions.md R142). -/
theorem decodeInfo_eq (idx : Word) (reason : BitVec 4) (c : Byte) :
    decodeInfo idx reason c = (idx.setWidth 16 ++ (0 : BitVec 4) ++ reason ++ c : BitVec (16 + 4 + 4 + 8)) := by
  rw [decodeInfo, BitVec.setWidth_eq_extractLsb' (by decide)]

/-- ERRINFO of E_KEYOVF, its INDEX the low half of B32CNT (60_exceptions.md R142). -/
theorem keyovfInfo_eq (idx : Word) (c : Byte) :
    keyovfInfo idx c = (idx.setWidth 16 ++ (0 : BitVec 8) ++ c : BitVec (16 + 8 + 8)) := by
  rw [keyovfInfo, BitVec.setWidth_eq_extractLsb' (by decide)]

/-- The model's `fail(r)` ends in the state that the statements write out. -/
theorem charFails_eq (reason : BitVec 4) (c : Byte) (s : State) :
    charFails reason c s = .next (charFailed reason c s) := by
  rw [charFails, raiseError, decodeInfo_eq]
  rfl

section
variable {s : State} {c : Byte}

theorem exec_b32ch_err (st : s.b32stat.state = .err) : exec (.b32ch c) s = .next (charFailed 6 c s) :=
  (if_pos st).trans (charFails_eq 6 c s)

theorem exec_b32ch_done (st : s.b32stat.state = .done) : exec (.b32ch c) s = .next (charFailed 4 c s) := by
  simp [exec, execB32ch, st, charFails_eq]

variable (notErr : s.b32stat.state ≠ .err) (notDone : s.b32stat.state ≠ .done)
include notErr notDone

theorem exec_b32ch_ws (h : cls c = .ws) : exec (.b32ch c) s = .next s.counted := by
  simp [exec, execB32ch, notErr, notDone, h]

theorem exec_b32ch_bad (h : cls c = .bad) : exec (.b32ch c) s = .next (charFailed 1 c s) := by
  simp [exec, execB32ch, notErr, notDone, h, charFails_eq]

theorem exec_b32ch_sym {v : BitVec 5} (h : cls c = .sym v) : exec (.b32ch c) s = symbolFed v c s := by
  simp [exec, execB32ch, notErr, notDone, h]

theorem exec_b32ch_padc (h : cls c = .padc) : exec (.b32ch c) s = padFed c s := by
  simp [exec, execB32ch, notErr, notDone, h]

end

/-! ### Data symbols (R95) -/

section
variable {s : State} {c : Byte} {v : BitVec 5} (sym : cls c = .sym v)
  (takes : s.b32stat.state = .idle ∨ s.b32stat.state = .data)
include sym takes

/-- In IDLE or DATA a data symbol is neither after the text nor inside the padding. -/
theorem exec_b32ch_sym_packs : exec (.b32ch c) s = symbolFed v c s ∧
    ¬ (s.b32stat.state = .pad ∨ s.b32stat.state = .ended) := by
  obtain st | st := takes <;> exact ⟨exec_b32ch_sym (by simp [st]) (by simp [st]) sym, by simp [st]⟩

theorem exec_b32ch_sym_taken {u : State} (packed : pack v s = some u) : exec (.b32ch c) s = .next
    { u.counted with b32stat := { u.b32stat with qpos := u.b32stat.qpos + 1, state := .data } } := by
  obtain ⟨run, notPadded⟩ := exec_b32ch_sym_packs sym takes
  rw [run, symbolFed, if_neg notPadded, packed]

theorem exec_b32ch_sym_overflows (full : pack v s = none) : exec (.b32ch c) s = .next
    (s.counted.decoderFailed.withError ⟨.keyovf, keyovfInfo s.b32cnt c⟩) := by
  obtain ⟨run, notPadded⟩ := exec_b32ch_sym_packs sym takes
  rw [run, symbolFed, if_neg notPadded, full, raiseError]

end

/-- The packer holds the bits or stores a byte when there is room for one (R95). -/
theorem pack_of_room {s : State} (v : BitVec 5) (room : s.b32stat.nbits.toNat + 5 < 8 ∨ s.keylen.toNat < 64) :
    ∃ u, pack v s = some u := by
  unfold pack
  dsimp only
  split
  next => exact ⟨_, rfl⟩
  next full => exact ⟨_, if_neg (by simp [Config.keyMax]; omega)⟩

/-- The packer refuses a byte past KEY[63] (R95). -/
theorem pack_of_full {s : State} (v : BitVec 5) (byte : 8 ≤ s.b32stat.nbits.toNat + 5)
    (full : 64 ≤ s.keylen.toNat) : pack v s = none := by
  unfold pack
  exact (if_neg (by omega)).trans (if_pos full)

/-! ### Padding (R96) -/

/-- `=` starts the padding in DATA where R96 lets it, and discards the pending bits. -/
theorem exec_b32ch_padBegins {s : State} (st : s.b32stat.state = .data)
    (may : padMayBegin s.b32stat.qpos = true) : exec (.b32ch 0x3D) s = .next { s.counted with
      b32stat := padTaken { s.b32stat with acc := 0, nbits := 0 } (s.b32stat.qpos.setWidth 4) } := by
  rw [exec_b32ch_padc (by simp [st]) (by simp [st]) rfl, padFed, st]
  exact if_pos may

/-- `=` goes on with the padding in PAD. -/
theorem exec_b32ch_padGoesOn {s : State} (st : s.b32stat.state = .pad) : exec (.b32ch 0x3D) s =
    .next { s.counted with b32stat := padTaken s.b32stat s.b32stat.dcnt } := by
  rw [exec_b32ch_padc (by simp [st]) (by simp [st]) rfl, padFed, st]

/-- The eighth position ends the quantum. -/
theorem padTaken_last {b : B32Stat} {dc : BitVec 4} (last : b.qpos = 7) :
    padTaken b dc = { b with qpos := 0, state := .ended, dcnt := dc } :=
  if_pos (by simp [last])

/-- Before the eighth position the padding goes on. -/
theorem padTaken_inside {b : B32Stat} {dc : BitVec 4} (inside : b.qpos ≠ 7) :
    padTaken b dc = { b with qpos := b.qpos + 1, state := .pad, dcnt := dc } :=
  if_neg (by bv_omega)

/-! ### The end of the text (R98) -/

/-- B32FIN accepts the text at the end of a quantum. -/
theorem exec_b32fin_accepts {s : State} (whole : s.b32stat.state = .idle ∨ s.b32stat.state = .ended ∨
      s.b32stat.state = .done ∨ (s.b32stat.state = .data ∧ s.b32stat.qpos = 0)) :
    exec .b32fin s = .next { s with b32stat := { s.b32stat with state := .done } } := by
  obtain st | st | st | ⟨st, q⟩ := whole <;> simp [exec, execB32fin, *]

/-- B32FIN refuses text that ends inside a quantum. -/
theorem exec_b32fin_refuses {s : State}
    (inside : (s.b32stat.state = .data ∧ s.b32stat.qpos ≠ 0) ∨ s.b32stat.state = .pad) :
    exec .b32fin s = .next (s.decoderFailed.withError ⟨.decode, decodeInfo s.b32cnt 5 0⟩) := by
  obtain ⟨st, q⟩ | st := inside
  · rw [exec, execB32fin, st]
    exact if_neg q
  · rw [exec, execB32fin, st]
    rfl

/-- B32FIN in ERR is an error of its own. -/
theorem exec_b32fin_err {s : State} (st : s.b32stat.state = .err) :
    exec .b32fin s = .next (s.withError ⟨.decode, decodeInfo s.b32cnt 6 0⟩) := by
  rw [exec, execB32fin, st]
  rfl

end Sys2Proof.Machine

namespace Sys2Proof.Proofs

open Sys2Proof.Machine Sys2Proof.Spec

/-- Settles O27, the classes of single bytes by evaluation over all of them, the symbols by the ranges of R91. -/
theorem characterMapperTable : Obligations.CharacterMapperTable := by
  unfold Obligations.CharacterMapperTable
  refine ⟨by decide, by decide, by decide, by decide, fun c v => eq_of_cls_sym⟩

/-- Settles O28: the reset values are read off the commit, and of the ways a command can end in ERR, each but
B32RST's keeps STATE or needs another. -/
theorem b32rstClearsDecoderAndKey : Obligations.B32rstClearsDecoderAndKey := by
  unfold Obligations.B32rstClearsDecoderAndKey
  have cleared : b32statWord ⟨.idle, 0, 0, 0, 0⟩ = 0 := by decide
  refine ⟨by decide, fun i s t st h left => ?_, fun s => ⟨_, rfl, rfl, cleared, ?_, ?_⟩⟩
  · cases exec_commits h with
    | b32rst => rfl
    | symbol c v u _ takes packed => simp [st] at takes
    | padBegins c _ inData may => simp [st] at inData
    | padGoesOn c _ inPad => simp [st] at inPad
    | textEnds whole => simp [st] at whole
    | charRefused | textRefused => exact absurd rfl left
    | _ => exact absurd st left
  · simp
  · simp [readReg, keyWord, packWord]

/-- Settles O29: the six bytes are the class WS. -/
theorem whitespaceOnlyCounts : Obligations.WhitespaceOnlyCounts := by
  unfold Obligations.WhitespaceOnlyCounts
  obtain ⟨-, -, -, ws, -⟩ := characterMapperTable
  exact fun s c mem notErr notDone => exec_b32ch_ws notErr notDone ((ws c).mpr mem)

/-- Settles O31: the packer refuses, and the error is recorded as R95 says. -/
theorem fullKeyOverflows : Obligations.FullKeyOverflows := by
  unfold Obligations.FullKeyOverflows
  intro s c v sym takes byte full
  rw [exec_b32ch_sym_overflows sym takes (pack_of_full v byte full), keyovfInfo_eq]
  rfl

/-- Settles O33, by the classes of characters and, for `=`, the decoder's states. -/
theorem refusedCharacters : Obligations.RefusedCharacters := by
  unfold Obligations.RefusedCharacters
  refine fun s c => ⟨exec_b32ch_err, exec_b32ch_done, fun notErr notDone => ⟨?_, ?_, ?_, ?_, ?_⟩⟩
  · exact exec_b32ch_bad notErr notDone
  · rintro ⟨v, sym⟩ padded
    rw [exec_b32ch_sym notErr notDone sym, symbolFed, if_pos padded, charFails_eq]
  · rintro rfl st
    rw [exec_b32ch_padc notErr notDone rfl, padFed, st]
    exact charFails_eq 2 0x3D s
  · rintro rfl st
    rw [exec_b32ch_padc notErr notDone rfl, padFed, st]
    exact charFails_eq 3 0x3D s
  · rintro rfl st qpos
    have mayNot : padMayBegin s.b32stat.qpos ≠ true := by simpa [padMayBegin, and_assoc] using qpos
    rw [exec_b32ch_padc notErr notDone rfl, padFed, st]
    exact (if_neg mayNot).trans (charFails_eq 2 0x3D s)

/-- Settles O32, by the decoder's states and whether the position is the quantum's eighth. -/
theorem paddingFillsTheQuantum : Obligations.PaddingFillsTheQuantum := by
  unfold Obligations.PaddingFillsTheQuantum
  refine fun s => ⟨fun st qpos => ?_, fun st last => ?_, fun st inside => ?_, fun st last => ?_⟩
  · simp only [List.mem_cons, List.not_mem_nil, or_false] at qpos
    have may : padMayBegin s.b32stat.qpos = true := by simp [padMayBegin]; tauto
    rw [exec_b32ch_padBegins st may, padTaken_inside (by dsimp only; bv_omega)]
    rfl
  · rw [exec_b32ch_padBegins st (by rw [last]; rfl), padTaken_last (by exact last), last]
    rfl
  · rw [exec_b32ch_padGoesOn st, padTaken_inside inside, ← st]
    rfl
  · rw [exec_b32ch_padGoesOn st, padTaken_last last]
    rfl

/-- Settles O34, by the decoder's states. -/
theorem b32finAcceptsWholeQuanta : Obligations.B32finAcceptsWholeQuanta := by
  unfold Obligations.B32finAcceptsWholeQuanta
  refine ⟨by decide, fun s => ⟨exec_b32fin_accepts, fun inside => ?_, fun st => ?_⟩⟩
  · rw [exec_b32fin_refuses inside, decodeInfo_eq]
    rfl
  · rw [exec_b32fin_err st, decodeInfo_eq]
    rfl

end Sys2Proof.Proofs
end

section
/-! PROOFS for 41_base32.md, runs of characters. First several commands one after another
(40_command.md R77), then text that the decoder accepts (R100). -/

namespace Sys2Proof.Machine

open Sys2Proof.Spec

/-! ### Commands one after another (40_command.md R77) -/

/-- A first command that answers hands its state to the rest. -/
theorem execAll_cons {i : Instr} {s u : State} (first : exec i s = .next u) (is : List Instr) :
    execAll (i :: is) s = execAll is u := by
  rw [execAll, first]

/-- Commands that answer hand their last state to the rest. -/
theorem execAll_append {is : List Instr} {s u : State} (first : execAll is s = .next u) (js : List Instr) :
    execAll (is ++ js) s = execAll js u := by
  induction is generalizing s with
  | nil => rw [Host.Outcome.next.inj first]; rfl
  | cons i is ih =>
    obtain ⟨w, run⟩ := exec_answers i s
    rw [execAll_cons run] at first
    rw [List.cons_append, execAll_cons run, ih first]

/-- Every list of commands answers. -/
theorem execAll_answers (is : List Instr) (s : State) : ∃ t, execAll is s = .next t := by
  induction is generalizing s with
  | nil => exact ⟨s, rfl⟩
  | cons i is ih =>
    obtain ⟨u, run⟩ := exec_answers i s
    rw [execAll_cons run]
    exact ih u

/-- A decoded text is a cleared decoder, the characters and B32FIN. -/
theorem execAll_decodeText {text : List Byte} {s t u : State}
    (cleared : exec .b32rst s = .next u) (fed : execAll (text.map .b32ch) u = .next t) :
    execAll (decodeText text) s = exec .b32fin t := by
  rw [decodeText, List.cons_append, execAll_cons cleared, execAll_append fed]
  obtain ⟨w, ends⟩ := exec_answers .b32fin t
  rw [execAll_cons ends, ends]
  rfl

/-! ### Accepted characters (R91, R94, R96) -/

/-- The characters of a text that take a position in a quantum: all but whitespace (R92). -/
def positions (text : List Byte) : Nat := (text.filter fun c => cls c ≠ .ws).length

@[simp] theorem positions_nil : positions [] = 0 := rfl

theorem positions_append (cs ds : List Byte) : positions (cs ++ ds) = positions cs + positions ds := by
  simp [positions]

theorem positions_ws {c : Byte} (ws : cls c = .ws) : positions [c] = 0 := by
  simp [positions, ws]

theorem positions_of_ne_ws {c : Byte} (notWs : cls c ≠ .ws) : positions [c] = 1 := by
  simp [positions, notWs]

/-- Taking one `=` moves QPOS one on, modulo 8. -/
@[simp] theorem padTaken_qpos (b : B32Stat) (dc : BitVec 4) : (padTaken b dc).qpos = b.qpos + 1 := by
  by_cases last : b.qpos = 7
  · rw [padTaken_last last, last]
    rfl
  · rw [padTaken_inside last]

/-- A character that does not end in ERR is not of class BAD, and moves QPOS one on unless it is whitespace. -/
theorem b32ch_accepted {c : Byte} {s t : State} (h : exec (.b32ch c) s = .next t)
    (ok : t.b32stat.state ≠ .err) :
    s.b32stat.state ≠ .err ∧ cls c ≠ .bad ∧
      t.b32stat.qpos = s.b32stat.qpos + BitVec.ofNat 3 (positions [c]) := by
  obtain ⟨e, -, rfl⟩ | ⟨notErr, -, accepted⟩ := execB32ch_cases h
  · exact absurd rfl ok
  obtain ⟨ws, rfl⟩ | ⟨v, u, sym, -, packed, rfl⟩ | ⟨padc, -, -, rfl⟩ | ⟨padc, -, rfl⟩ := accepted
  · refine ⟨notErr, by simp [ws], ?_⟩
    simp [positions_ws ws]
  · have kept : u.b32stat.qpos = s.b32stat.qpos := by
      obtain ⟨-, rfl⟩ | ⟨-, -, rfl⟩ := pack_cases packed <;> rfl
    refine ⟨notErr, by simp [sym], ?_⟩
    simp [positions_of_ne_ws, sym, kept]
  · refine ⟨notErr, by simp [padc], ?_⟩
    simp [positions_of_ne_ws, padc]
  · refine ⟨notErr, by simp [padc], ?_⟩
    simp [positions_of_ne_ws, padc]

/-- Characters that do not end in ERR are none of class BAD, and QPOS counts those that are not whitespace. -/
theorem characters_accepted {text : List Byte} {s t : State} (h : execAll (text.map .b32ch) s = .next t)
    (ok : t.b32stat.state ≠ .err) :
    s.b32stat.state ≠ .err ∧ (∀ c ∈ text, cls c ≠ .bad) ∧
      t.b32stat.qpos = s.b32stat.qpos + BitVec.ofNat 3 (positions text) := by
  induction text generalizing s with
  | nil =>
    obtain rfl := Host.Outcome.next.inj h
    exact ⟨ok, by simp, by simp⟩
  | cons c text ih =>
    obtain ⟨u, first⟩ := exec_answers (.b32ch c) s
    rw [List.map_cons, execAll_cons first] at h
    obtain ⟨uOk, good, counted⟩ := ih h
    obtain ⟨sOk, goodHead, moved⟩ := b32ch_accepted first uOk
    refine ⟨sOk, List.forall_mem_cons.mpr ⟨goodHead, good⟩, ?_⟩
    rw [counted, moved, show positions (c :: text) = _ from positions_append [c] text, BitVec.ofNat_add,
      BitVec.add_assoc]

/-- Commands one after another keep the decoder consistent. -/
theorem execAll_keeps_consistent {is : List Instr} {s t : State} (h : execAll is s = .next t)
    (inv : s.b32stat.Consistent) : t.b32stat.Consistent := by
  induction is generalizing s with
  | nil => exact Host.Outcome.next.inj h ▸ inv
  | cons i is ih =>
    obtain ⟨u, first⟩ := exec_answers i s
    rw [execAll_cons first] at h
    exact ih h (exec_keeps_consistent first inv)

/-- B32FIN that ends in DONE leaves QPOS alone, and found the decoder not in ERR. -/
theorem b32fin_accepted {s t : State} (h : exec .b32fin s = .next t) (done : t.b32stat.state = .done) :
    s.b32stat.state ≠ .err ∧ t.b32stat.qpos = s.b32stat.qpos := by
  obtain ⟨e, -, rfl⟩ | ⟨whole, rfl⟩ := execB32fin_cases h
  · cases done
  · exact ⟨fun err => by simp [err] at whole, rfl⟩

end Sys2Proof.Machine

namespace Sys2Proof.Proofs

open Sys2Proof.Machine Sys2Proof.Spec

/-- Settles O36: QPOS counts the characters that are not whitespace, and a consistent decoder in DONE has QPOS 0. -/
theorem acceptedTextIsWholeQuanta : Obligations.AcceptedTextIsWholeQuanta := by
  unfold Obligations.AcceptedTextIsWholeQuanta
  intro s t text run done
  obtain ⟨f, fed⟩ := execAll_answers (text.map .b32ch) _
  have ends := (execAll_decodeText rfl fed).symm.trans run
  obtain ⟨notErr, kept⟩ := b32fin_accepted ends done
  obtain ⟨-, good, counted⟩ := characters_accepted fed notErr
  have consistent : f.b32stat.Consistent := execAll_keeps_consistent fed (by simp [B32Stat.Consistent])
  obtain ⟨-, -, -, -, -, -, -, atEnd⟩ := exec_keeps_consistent ends consistent
  have boundary : BitVec.ofNat 3 (positions text) = 0 := by
    rw [← (atEnd done).1, kept, counted]
    simp
  have whole : positions text % 8 = 0 := by simpa using congrArg BitVec.toNat boundary
  exact ⟨good, whole⟩

end Sys2Proof.Proofs
end

section
/-! PROOFS for 41_base32.md, a data symbol: what it adds to the packer and the key, read as one number (R95). -/

namespace Sys2Proof.Machine

open Sys2Proof.Spec

/-! ### Bytes and symbols as one number, most significant first -/

/-- A number with bytes appended to it. -/
def appendBytes (n : Nat) (bs : List Byte) : Nat := bs.foldl (fun acc b => acc * 256 + b.toNat) n

/-- A number with 5-bit symbols appended to it. -/
def appendSymbols (n : Nat) (vs : List (BitVec 5)) : Nat := vs.foldl (fun acc v => 32 * acc + v.toNat) n

@[simp] theorem appendBytes_append (n : Nat) (bs cs : List Byte) :
    appendBytes n (bs ++ cs) = appendBytes (appendBytes n bs) cs := List.foldl_append

@[simp] theorem appendSymbols_append (n : Nat) (vs ws : List (BitVec 5)) :
    appendSymbols n (vs ++ ws) = appendSymbols (appendSymbols n vs) ws := List.foldl_append

theorem appendBytes_cons (n : Nat) (b : Byte) (bs : List Byte) :
    appendBytes n (b :: bs) = appendBytes (n * 256 + b.toNat) bs := rfl

@[simp] theorem appendBytes_singleton (n : Nat) (b : Byte) : appendBytes n [b] = n * 256 + b.toNat := rfl

@[simp] theorem appendSymbols_singleton (n : Nat) (v : BitVec 5) : appendSymbols n [v] = 32 * n + v.toNat := rfl

/-- The number in front moves up by a byte's 8 bits for each byte appended. -/
theorem appendBytes_eq (n : Nat) (bs : List Byte) :
    appendBytes n bs = n * 256 ^ bs.length + appendBytes 0 bs := by
  induction bs generalizing n with
  | nil => simp [appendBytes]
  | cons b bs ih =>
    rw [appendBytes_cons, appendBytes_cons, ih, ih (0 * 256 + b.toNat), List.length_cons, pow_succ]
    ring

theorem appendBytes_lt (bs : List Byte) : appendBytes 0 bs < 256 ^ bs.length := by
  induction bs using List.reverseRecOn with
  | nil => simp [appendBytes]
  | append_singleton bs b ih =>
    rw [appendBytes_append, appendBytes_singleton, List.length_append, List.length_singleton, pow_succ]
    omega

/-- Byte strings of one length that make the same number are the same. -/
theorem appendBytes_inj {m n : Nat} {bs cs : List Byte} (len : bs.length = cs.length)
    (same : appendBytes m bs = appendBytes n cs) : m = n ∧ bs = cs := by
  induction bs generalizing m n cs with
  | nil =>
    obtain rfl := List.length_eq_zero_iff.mp len.symm
    exact ⟨same, rfl⟩
  | cons b bs ih =>
    obtain ⟨c, cs, rfl⟩ := List.exists_cons_of_length_eq_add_one len.symm
    rw [appendBytes_cons, appendBytes_cons] at same
    obtain ⟨front, rfl⟩ := ih (Nat.succ.inj len) same
    have bLt := b.isLt
    have cLt := c.isLt
    obtain rfl : b = c := BitVec.eq_of_toNat_eq (by omega)
    exact ⟨by omega, rfl⟩

/-! ### What a data symbol adds (R95) -/

theorem keyValue_eq (s : State) : keyValue s = appendBytes 0 (s.key.toList.take s.keylen.toNat) := rfl

/-- A byte stored at KEY[KEYLEN] is appended to the key's number. -/
theorem keyValue_stored {s u : State} {b : Byte} (room : s.keylen.toNat < 64)
    (key : u.key = s.key.setIfInBounds s.keylen.toNat b) (keylen : u.keylen.toNat = s.keylen.toNat + 1) :
    keyValue u = keyValue s * 256 + b.toNat := by
  have inRange : s.keylen.toNat < (s.key.toList.set s.keylen.toNat b).length := by simpa using room
  rw [keyValue_eq, keyValue_eq, key, keylen, Vector.toList_setIfInBounds,
    List.take_succ_eq_append_getElem inRange, List.take_set_of_le le_rfl, List.getElem_set_self,
    appendBytes_append, appendBytes_singleton]

/-- The packer holds at most 7 bits, and nothing above them. -/
theorem consistent_pending {b : B32Stat} (h : b.Consistent) :
    b.nbits.toNat ≤ 7 ∧ b.acc.toNat < 2 ^ b.nbits.toNat := by
  obtain ⟨few, pending, -⟩ := h
  exact ⟨few, pending⟩

/-- The packer appends the 5 bits of the symbol to everything fed so far. -/
theorem pack_appends {v : BitVec 5} {s u : State} (h : s.b32stat.Consistent) (packed : pack v s = some u) :
    fedValue u = 32 * fedValue s + v.toNat ∧ fedBits u = fedBits s + 5 := by
  obtain ⟨few, pending⟩ := consistent_pending h
  have vLt := v.isLt
  have total : s.b32stat.acc.toNat * 2 ^ 5 + v.toNat < 2 ^ (s.b32stat.nbits.toNat + 5) := by
    rw [Nat.pow_add]
    omega
  have fits {n k : Nat} (bits : n < 2 ^ k) (small : k ≤ 7) : (BitVec.ofNat 7 n).toNat = n :=
    Nat.mod_eq_of_lt (bits.trans_le (Nat.pow_le_pow_right (by decide) small))
  obtain ⟨small, rfl⟩ | ⟨byte, room, rfl⟩ := pack_cases packed
  · have nbits : (BitVec.ofNat 4 (s.b32stat.nbits.toNat + 5)).toNat = s.b32stat.nbits.toNat + 5 :=
      Nat.mod_eq_of_lt (by omega)
    refine ⟨?_, by rw [fedBits, nbits, fedBits, Nat.add_assoc]⟩
    rw [fedValue, nbits, fits total (by omega), Nat.pow_add, fedValue]
    change keyValue s * _ + _ = _
    ring
  · obtain ⟨m, left⟩ := Nat.exists_eq_add_of_le' byte
    rw [show s.b32stat.nbits.toNat + 5 - 8 = m by omega]
    rw [left] at total
    have nbits : (BitVec.ofNat 4 m).toNat = m := Nat.mod_eq_of_lt (by omega)
    have keylen : (s.keylen + 1).toNat = s.keylen.toNat + 1 := by bv_omega
    have emitted := Nat.mod_eq_of_lt (Nat.div_lt_of_lt_mul (Nat.pow_add 2 m 8 ▸ total))
    have shift : 256 * 2 ^ m = 32 * 2 ^ s.b32stat.nbits.toNat := by
      rw [mul_comm, mul_comm 32]
      exact (Nat.pow_add 2 m 8).symm.trans (left ▸ Nat.pow_add 2 _ 5)
    refine ⟨?_, by rw [fedBits, nbits, keylen, fedBits]; omega⟩
    rw [fedValue, keyValue_stored room rfl keylen, nbits, fits (Nat.mod_lt _ (Nat.two_pow_pos m)) (by omega),
      BitVec.toNat_ofNat, emitted, Nat.add_mul, Nat.add_assoc, Nat.div_add_mod', mul_assoc, shift, fedValue]
    ring

/-- The packer leaves QPOS and DCNT alone, and writes no key byte but KEY[KEYLEN], and none before a byte is
complete. -/
theorem pack_keeps {v : BitVec 5} {s u : State} (packed : pack v s = some u) :
    u.b32stat.qpos = s.b32stat.qpos ∧ u.b32stat.dcnt = s.b32stat.dcnt ∧
    (∀ i : Fin 64, i.val ≠ s.keylen.toNat → u.key[i] = s.key[i]) ∧
    (s.b32stat.nbits.toNat + 5 < 8 → u.key = s.key) := by
  obtain ⟨-, rfl⟩ | ⟨byte, -, rfl⟩ := pack_cases packed
  · exact ⟨rfl, rfl, fun _ _ => rfl, fun _ => rfl⟩
  · exact ⟨rfl, rfl, fun i ne => Vector.getElem_setIfInBounds_ne _ (Ne.symm ne), fun small => by omega⟩

end Sys2Proof.Machine

namespace Sys2Proof.Proofs

open Sys2Proof.Machine Sys2Proof.Spec

/-- Settles O30: the packer has room, and appends the symbol's bits to what it was fed. -/
theorem symbolAppendsFiveBits : Obligations.SymbolAppendsFiveBits := by
  unfold Obligations.SymbolAppendsFiveBits
  intro s c v consistent sym takes room
  obtain ⟨u, packed⟩ := pack_of_room v room
  obtain ⟨value, bits⟩ := pack_appends consistent packed
  obtain ⟨few, pending⟩ := consistent_pending (consistent_pack consistent takes packed)
  obtain ⟨qpos, dcnt, otherBytes, noByte⟩ := pack_keeps packed
  obtain ⟨key, keylen, b32stat, rfl⟩ := pack_frame packed
  exact ⟨_, exec_b32ch_sym_taken sym takes packed, rfl, value, bits, few, pending, rfl,
    by simp [← qpos], dcnt, otherBytes, noByte⟩

end Sys2Proof.Proofs
end

section
/-! PROOFS for 41_base32.md, decoding what was encoded (R100): the symbols of an encoded text, the decoder fed
with the symbols and the padding, and the key it then holds. -/

namespace Sys2Proof.Machine

open Sys2Proof.Spec

/-! ### The symbols of an encoded text (R95, R96) -/

/-- The characters of a run of symbols. -/
def symbolText (vs : List (BitVec 5)) : List Byte := vs.map fun v => base32Char v.toNat

/-- The first `k` symbols of a 40-bit number, the most significant first. -/
def leadingSymbols (n k : Nat) : List (BitVec 5) := (List.range k).map fun i => BitVec.ofNat 5 (n / 32 ^ (7 - i))

/-- The leading symbols make what is left of the number when the others are shifted out. -/
theorem appendSymbols_leadingSymbols {n k : Nat} (m : Nat) (bits : n < 32 ^ 8) (le : k ≤ 8) :
    appendSymbols m (leadingSymbols n k) = m * 32 ^ k + n / 32 ^ (8 - k) := by
  induction k with
  | zero => simpa [appendSymbols, leadingSymbols] using bits
  | succ k ih =>
    have shifted : n / 32 ^ (8 - k) = n / 32 ^ (7 - k) / 32 := by
      rw [Nat.div_div_eq_div_mul, ← pow_succ, show 7 - k + 1 = 8 - k by omega]
    have last : leadingSymbols n (k + 1) = leadingSymbols n k ++ [BitVec.ofNat 5 (n / 32 ^ (7 - k))] := by
      simp [leadingSymbols, List.range_succ]
    rw [last, appendSymbols_append, ih (by omega), appendSymbols_singleton, shifted, BitVec.toNat_ofNat, pow_succ 32 k,
      ← mul_assoc, show 8 - (k + 1) = 7 - k by omega]
    omega

/-- The symbols of a quantum: its bytes, 5 bits a symbol, the last one filled up with zeros. -/
def quantumSymbols (bs : List Byte) : List (BitVec 5) :=
  leadingSymbols (appendBytes 0 bs * 256 ^ (5 - bs.length)) ((8 * bs.length + 4) / 5)

@[simp] theorem quantumSymbols_length (bs : List Byte) :
    (quantumSymbols bs).length = (8 * bs.length + 4) / 5 := by
  simp [quantumSymbols, leadingSymbols]

/-- A quantum of text is its symbols, then `=` up to the eighth position. -/
theorem base32Quantum_eq {bs : List Byte} (short : bs.length ≤ 5) :
    base32Quantum bs = symbolText (quantumSymbols bs) ++ List.replicate (8 - (8 * bs.length + 4) / 5) 0x3D := by
  have positions : List.range 8 = List.range ((8 * bs.length + 4) / 5) ++
      (List.range (8 - (8 * bs.length + 4) / 5)).map ((8 * bs.length + 4) / 5 + ·) := by
    rw [← List.range_add, Nat.add_sub_cancel' (by omega)]
  rw [base32Quantum, positions, List.map_append, symbolText, quantumSymbols, leadingSymbols, List.map_map,
    List.map_map]
  congr 1
  · refine List.map_congr_left fun i data => ?_
    exact (if_pos (List.mem_range.mp data)).trans (congrArg base32Char (BitVec.toNat_ofNat _ 5).symm)
  · refine List.eq_replicate_iff.mpr ⟨by simp, fun c pad => ?_⟩
    obtain ⟨i, -, rfl⟩ := List.mem_map.mp pad
    exact if_neg (by dsimp only; omega)

/-- The symbols of a quantum hold the bits of its bytes and those that fill up the last symbol. -/
theorem quantum_bits : ∀ m ≤ 5, 32 ^ ((8 * m + 4) / 5) = 256 ^ m * 2 ^ (2 * m % 5) ∧
    256 ^ (5 - m) = 2 ^ (2 * m % 5) * 32 ^ (8 - (8 * m + 4) / 5) := by
  decide

/-- The symbols of a quantum make the number of its bytes and the bits that fill up the last symbol. -/
theorem appendSymbols_quantumSymbols {bs : List Byte} (m : Nat) (short : bs.length ≤ 5) :
    appendSymbols m (quantumSymbols bs) = appendBytes m bs * 2 ^ (2 * bs.length % 5) := by
  obtain ⟨held, unused⟩ := quantum_bits bs.length short
  have bits : appendBytes 0 bs * 256 ^ (5 - bs.length) < 32 ^ 8 := by
    have lt := Nat.mul_lt_mul_of_pos_right (appendBytes_lt bs) (Nat.pow_pos (n := 5 - bs.length) (by decide : 0 < 256))
    exact lt.trans_eq (pow_mul_pow_sub 256 short)
  rw [quantumSymbols, appendSymbols_leadingSymbols m bits (by omega), held, unused, ← mul_assoc (appendBytes 0 bs),
    Nat.mul_div_cancel _ (Nat.pow_pos (by decide)), appendBytes_eq m]
  ring

/-- `Spells vs bs`: the text of `bs` is the symbols `vs` and the padding that fills the last quantum, and `vs` holds
the bits of `bs` and the zero bits that fill up its last symbol. -/
structure Spells (vs : List (BitVec 5)) (bs : List Byte) : Prop where
  text : base32Text bs = symbolText vs ++ List.replicate ((8 - vs.length % 8) % 8) 0x3D
  bits : 5 * vs.length = 8 * bs.length + 2 * bs.length % 5
  value (n : Nat) : appendSymbols n vs = appendBytes n bs * 2 ^ (2 * bs.length % 5)

/-- Without a byte there is no text. -/
theorem spells_nil : Spells [] [] := ⟨rfl, rfl, fun n => (Nat.mul_one n).symm⟩

/-- One to four bytes are one quantum. -/
theorem spells_quantum {bs : List Byte} (nonempty : bs ≠ []) (short : bs.length < 5)
    (text : base32Text bs = base32Quantum bs) : Spells (quantumSymbols bs) bs := by
  have pos := List.length_pos_iff.mpr nonempty
  refine ⟨?_, ?_, fun n => appendSymbols_quantumSymbols n short.le⟩
  · rw [text, base32Quantum_eq short.le, quantumSymbols_length]
    congr 2
    omega
  · rw [quantumSymbols_length]
    omega

/-- Five bytes and the bytes after them are a full quantum and the text of those. -/
theorem spells_append {q rest : List Byte} {vs : List (BitVec 5)} (five : q.length = 5)
    (text : base32Text (q ++ rest) = base32Quantum q ++ base32Text rest) (spelled : Spells vs rest) :
    Spells (quantumSymbols q ++ vs) (q ++ rest) := by
  have eight : (quantumSymbols q).length = 8 := by rw [quantumSymbols_length, five]
  refine ⟨?_, ?_, fun n => ?_⟩
  · rw [text, base32Quantum_eq five.le, spelled.text, List.length_append, eight, five, Nat.add_mod_left]
    simp [symbolText]
  · have bits := spelled.bits
    rw [List.length_append, List.length_append, eight, five]
    omega
  · rw [appendSymbols_append, appendSymbols_quantumSymbols n five.le, spelled.value, appendBytes_append,
      List.length_append, five, show 2 * (5 + rest.length) % 5 = 2 * rest.length % 5 by omega]
    simp

/-- A byte string without five bytes in front is shorter than a quantum. -/
theorem length_lt_of_no_quantum {bs : List Byte}
    (none : ∀ b0 b1 b2 b3 b4 rest, bs = b0 :: b1 :: b2 :: b3 :: b4 :: rest → False) : bs.length < 5 := by
  match bs, none with
  | [], _ | [_], _ | [_, _], _ | [_, _, _], _ | [_, _, _, _], _ => simp
  | b0 :: b1 :: b2 :: b3 :: b4 :: rest, none => exact (none b0 b1 b2 b3 b4 rest rfl).elim

/-- Every byte string's text is spelled by some symbols: an induction over its quanta. -/
theorem exists_spells (bs : List Byte) : ∃ vs, Spells vs bs := by
  induction bs using base32Text.induct with
  | case1 b0 b1 b2 b3 b4 rest ih =>
    obtain ⟨vs, spelled⟩ := ih
    exact ⟨_, spells_append (q := [b0, b1, b2, b3, b4]) rfl (base32Text.eq_1 b0 b1 b2 b3 b4 rest) spelled⟩
  | case2 => exact ⟨[], spells_nil⟩
  | case3 tail noQuantum nonempty =>
    exact ⟨_, spells_quantum nonempty (length_lt_of_no_quantum noQuantum) (base32Text.eq_3 tail noQuantum nonempty)⟩

/-! ### Symbols fed to the decoder (R95) -/

/-- `DecoderFrame s t`: `t` is `s` but for B32STAT, B32CNT, KEYLEN and the key. -/
def DecoderFrame (s t : State) : Prop :=
  ∃ b32stat b32cnt keylen key, t = { s with b32stat := b32stat, b32cnt := b32cnt, keylen := keylen, key := key }

/-- `Took s vs t`: from `s` cleared by B32RST, the symbols `vs` led to `t`, and nothing else was fed. The packer and
the key hold exactly their bits. -/
structure Took (s : State) (vs : List (BitVec 5)) (t : State) : Prop where
  consistent : t.b32stat.Consistent
  takes : t.b32stat.state = .idle ∨ t.b32stat.state = .data
  value : fedValue t = appendSymbols 0 vs
  bits : fedBits t = 5 * vs.length
  qpos : t.b32stat.qpos.toNat = vs.length % 8
  zeros : ∀ i : Fin 64, t.keylen.toNat ≤ i.val → t.key[i] = 0
  frame : DecoderFrame s t

/-- B32RST leaves a decoder that took nothing. -/
theorem took_nil (s : State) : ∃ t, exec .b32rst s = .next t ∧ Took s [] t :=
  ⟨_, rfl,
    { consistent := by simp [B32Stat.Consistent]
      takes := .inl rfl
      value := rfl
      bits := rfl
      qpos := rfl
      zeros := by simp
      frame := ⟨_, _, _, _, rfl⟩ }⟩

/-- A decoder takes one more symbol as long as the bits fit the key and the packer. -/
theorem Took.symbol {s t : State} {vs : List (BitVec 5)} (took : Took s vs t) (v : BitVec 5)
    (room : 5 * (vs.length + 1) < 520) :
    ∃ u, exec (.b32ch (base32Char v.toNat)) t = .next u ∧ Took s (vs ++ [v]) u := by
  have bits := took.bits
  rw [fedBits] at bits
  obtain ⟨u, run, frame, value, moreBits, few, -, st, qpos, -, otherBytes, noByte⟩ :=
    Proofs.symbolAppendsFiveBits t _ v took.consistent (cls_base32Char v) took.takes (by omega)
  refine ⟨u, run, exec_keeps_consistent run took.consistent, .inr st, ?_, ?_, ?_, fun i above => ?_, ?_⟩
  · rw [value, took.value, appendSymbols_append, appendSymbols_singleton]
  · rw [moreBits, took.bits, List.length_append]
    rfl
  · rw [qpos, took.qpos, List.length_append, Nat.mod_add_mod]
    rfl
  · rw [fedBits, fedBits] at moreBits
    by_cases byte : t.b32stat.nbits.toNat + 5 < 8
    · rw [noByte byte]
      exact took.zeros i (by omega)
    · rw [otherBytes i (by omega)]
      exact took.zeros i (by omega)
  · obtain ⟨_, _, _, _, rfl⟩ := took.frame
    exact ⟨_, _, _, _, frame⟩

/-- A decoder takes a run of symbols as long as the bits fit the key and the packer. -/
theorem Took.symbols {s t : State} {vs : List (BitVec 5)} (took : Took s vs t) (ws : List (BitVec 5))
    (room : 5 * (vs.length + ws.length) < 520) :
    ∃ u, execAll ((symbolText ws).map .b32ch) t = .next u ∧ Took s (vs ++ ws) u := by
  induction ws generalizing vs t with
  | nil => exact ⟨t, rfl, by rwa [List.append_nil]⟩
  | cons w ws ih =>
    rw [List.length_cons] at room
    obtain ⟨u, first, tookOne⟩ := took.symbol w (by omega)
    obtain ⟨x, rest, tookAll⟩ := ih tookOne (by rw [List.length_append, List.length_singleton]; omega)
    exact ⟨x, (execAll_cons first _).trans rest, by rwa [List.append_cons]⟩

/-! ### Padding fed to the decoder (R96) -/

/-- Once a `=` is taken, more of them fill the quantum. -/
theorem padding_fills {b : B32Stat} {dc : BitVec 4} {s : State} {n : Nat} (taken : s.b32stat = padTaken b dc)
    (left : b.qpos.toNat + n = 7) : ∃ stat cnt,
      execAll (List.replicate n (.b32ch 0x3D)) s = .next { s with b32stat := stat, b32cnt := cnt } ∧
      stat.state = .ended := by
  induction n generalizing b dc s with
  | zero =>
    rw [padTaken_last (by bv_omega)] at taken
    exact ⟨s.b32stat, s.b32cnt, rfl, by rw [taken]⟩
  | succ n ih =>
    rw [padTaken_inside (by bv_omega)] at taken
    have first := exec_b32ch_padGoesOn (s := s) (by rw [taken])
    obtain ⟨stat, cnt, rest, ended⟩ := ih (s := { s.counted with b32stat := padTaken s.b32stat s.b32stat.dcnt }) rfl
      (by rw [taken]; bv_omega)
    exact ⟨stat, cnt, (execAll_cons first _).trans rest, ended⟩

/-- The positions of R96, without the quantum's start. -/
theorem padMayBegin_of_mem {q : BitVec 3} (legal : q.toNat ∈ [0, 2, 4, 5, 7]) (inside : q ≠ 0) :
    padMayBegin q = true := by
  revert q
  decide

/-- The padding of a text takes the decoder to a point where B32FIN accepts it. -/
theorem Took.padding {s t : State} {vs : List (BitVec 5)} (took : Took s vs t)
    (legal : vs.length % 8 ∈ [0, 2, 4, 5, 7]) : ∃ stat cnt,
      execAll (List.replicate ((8 - vs.length % 8) % 8) (.b32ch 0x3D)) t =
        .next { t with b32stat := stat, b32cnt := cnt } ∧
      (stat.state = .idle ∨ stat.state = .ended ∨ stat.state = .done ∨
        (stat.state = .data ∧ stat.qpos = 0)) := by
  rw [← took.qpos] at legal ⊢
  by_cases boundary : t.b32stat.qpos = 0
  · exact ⟨t.b32stat, t.b32cnt, by rw [boundary]; rfl,
      took.takes.imp_right fun st => .inr (.inr ⟨st, boundary⟩)⟩
  · obtain ⟨-, -, -, idle, -⟩ := took.consistent
    have st : t.b32stat.state = .data := took.takes.resolve_left fun st => boundary (idle st).1
    have first := exec_b32ch_padBegins st (padMayBegin_of_mem legal boundary)
    obtain ⟨stat, cnt, rest, ended⟩ := padding_fills (n := 7 - t.b32stat.qpos.toNat)
      (b := { t.b32stat with acc := 0, nbits := 0 }) (s := { t.counted with b32stat := padTaken _ _ }) rfl
      (by dsimp only; omega)
    refine ⟨stat, cnt, ?_, .inr (.inl ended)⟩
    rw [show (8 - t.b32stat.qpos.toNat) % 8 = 7 - t.b32stat.qpos.toNat + 1 by bv_omega]
    exact (execAll_cons first _).trans rest

/-! ### The key of a decoded text (R100) -/

/-- The bytes past KEYLEN are zero, so the key is its first KEYLEN bytes, filled up with zeros. -/
theorem key_eq_append_zeros {t : State} (le : t.keylen.toNat ≤ 64)
    (zeros : ∀ i : Fin 64, t.keylen.toNat ≤ i.val → t.key[i] = 0) :
    t.key.toList = t.key.toList.take t.keylen.toNat ++ List.replicate (64 - t.keylen.toNat) 0 := by
  have rest : t.key.toList.drop t.keylen.toNat = List.replicate (64 - t.keylen.toNat) 0 := by
    refine List.eq_replicate_iff.mpr ⟨by simp, fun b mem => ?_⟩
    obtain ⟨i, lt, rfl⟩ := List.mem_iff_getElem.mp mem
    rw [List.length_drop, Vector.length_toList] at lt
    rw [List.getElem_drop, Vector.getElem_toList]
    exact zeros ⟨t.keylen.toNat + i, by omega⟩ (Nat.le_add_right _ _)
  rw [← rest, List.take_append_drop]

/-- A decoder that took the symbols of a text holds the bytes of the text. -/
theorem Took.key {s t : State} {vs : List (BitVec 5)} {bs : List Byte} (took : Took s vs t) (spelled : Spells vs bs)
    (len : bs.length ≤ 64) :
    t.keylen.toNat = bs.length ∧ t.key.toList = bs ++ List.replicate (64 - bs.length) 0 := by
  obtain ⟨few, pending⟩ := consistent_pending took.consistent
  have bits := took.bits
  rw [spelled.bits, fedBits] at bits
  have keylen : t.keylen.toNat = bs.length := by omega
  have nbits : t.b32stat.nbits.toNat = 2 * bs.length % 5 := by omega
  have value := took.value.trans (spelled.value 0)
  rw [fedValue, nbits] at value
  rw [nbits] at pending
  have number : keyValue t = appendBytes 0 bs := by
    rw [← Nat.mul_div_cancel (appendBytes 0 bs) (Nat.zero_lt_of_lt pending), ← value, Nat.add_comm,
      Nat.add_mul_div_right _ _ (Nat.zero_lt_of_lt pending), Nat.div_eq_of_lt pending, Nat.zero_add]
  have taken : (t.key.toList.take t.keylen.toNat).length = bs.length := by
    rw [List.length_take, Vector.length_toList, keylen, Nat.min_eq_left len]
  obtain ⟨-, bytes⟩ := appendBytes_inj taken number
  refine ⟨keylen, ?_⟩
  rw [key_eq_append_zeros (keylen.trans_le len) took.zeros, bytes, keylen]

end Sys2Proof.Machine

namespace Sys2Proof.Proofs

open Sys2Proof.Machine Sys2Proof.Spec

/-- Settles O35: the text is spelled by symbols, an induction over quanta; the decoder takes them one by one, each
with 5 bits more; the padding and B32FIN leave the key alone. -/
theorem base32DecodesEveryEncodedKey : Obligations.Base32DecodesEveryEncodedKey := by
  unfold Obligations.Base32DecodesEveryEncodedKey
  intro s bs len
  obtain ⟨vs, spelled⟩ := exists_spells bs
  have bits := spelled.bits
  obtain ⟨c, cleared, tookNone⟩ := took_nil s
  obtain ⟨t, fed, took⟩ := tookNone.symbols vs (by rw [List.length_nil]; omega)
  obtain ⟨stat, cnt, padded, whole⟩ := took.padding (by simp; omega)
  obtain ⟨keylen, key⟩ := took.key spelled len
  have ends := exec_b32fin_accepts (s := { t with b32stat := stat, b32cnt := cnt }) whole
  have text : execAll ((base32Text bs).map .b32ch) c = .next { t with b32stat := stat, b32cnt := cnt } := by
    rw [spelled.text, List.map_append, execAll_append fed, List.map_replicate]
    exact padded
  refine ⟨_, (execAll_decodeText cleared text).trans ends, ?_, rfl, keylen, key⟩
  obtain ⟨_, _, _, _, rfl⟩ := took.frame
  rfl

end Sys2Proof.Proofs
end

section
/-! PROOFS for 42_otp_digest.md, SHA-1: what compression computes and the two blocks of each hash. -/

namespace Sys2Proof.Machine

/-! ### The message schedule and the working variables (R111) -/

theorem messageSchedule_length {m : List Byte} (len : m.length = 64) : (messageSchedule m).length = 80 := by
  simp [messageSchedule, extendSchedule_length, bigEndianWords_length, len]

/-- Word `t` of the schedule, counted from the latest word. -/
theorem messageSchedule_getD {m : List Byte} (len : m.length = 64) {t : Nat} (lt : t < 80) :
    (messageSchedule m).getD t 0 = (extendSchedule 64 (bigEndianWords m).reverse).getD (79 - t) 0 := by
  have length : (extendSchedule 64 (bigEndianWords m).reverse).length = 80 := by
    simp [extendSchedule_length, bigEndianWords_length, len]
  rw [messageSchedule, List.getD_reverse t (by omega), length]

/-- The first 16 words of the schedule are the words of the block. -/
theorem messageSchedule_getD_block {m : List Byte} (len : m.length = 64) {t : Nat} (le : t ≤ 15) :
    (messageSchedule m).getD t 0 =
      packWord (m.getD (4 * t) 0) (m.getD (4 * t + 1) 0) (m.getD (4 * t + 2) 0) (m.getD (4 * t + 3) 0) := by
  have words : (bigEndianWords m).length = 16 := by rw [bigEndianWords_length, len]
  rw [messageSchedule_getD len (by omega), show 79 - t = 64 + (15 - t) by omega, extendSchedule_getD_add,
    List.getD_reverse _ (by omega), words, show 16 - 1 - (15 - t) = t by omega,
    bigEndianWords_getD t m (by omega)]

/-- The other words of the schedule follow the recurrence. -/
theorem messageSchedule_getD_recurrence {m : List Byte} (len : m.length = 64) {t : Nat} (ge : 16 ≤ t)
    (le : t ≤ 79) :
    (messageSchedule m).getD t 0 =
      rotl 1 ((messageSchedule m).getD (t - 3) 0 ^^^ (messageSchedule m).getD (t - 8) 0 ^^^
        (messageSchedule m).getD (t - 14) 0 ^^^ (messageSchedule m).getD (t - 16) 0) := by
  have earlier : ∀ k, k ≤ t → (messageSchedule m).getD (t - k) 0 =
      (extendSchedule 64 (bigEndianWords m).reverse).getD (79 - t + k) 0 := fun k le' => by
    rw [messageSchedule_getD len (by omega), show 79 - (t - k) = 79 - t + k by omega]
  rw [messageSchedule_getD len (by omega), extendSchedule_getD_lt 64 (79 - t) _ (by omega),
    earlier 3 (by omega), earlier 8 (by omega), earlier 14 (by omega), earlier 16 ge]

/-- The working variables before round `t` of `compress h m`. -/
def workingVariables (h : Digest) (m : List Byte) (t : Nat) : Digest :=
  sha1Rounds 0 ((messageSchedule m).take t) h

/-- A round on the working variables, with its f and K. -/
theorem workingVariables_succ {m : List Byte} (len : m.length = 64) (h : Digest) {t : Nat} (lt : t < 80)
    {fv kt : Word}
    (f : sha1F t (workingVariables h m t).w1 (workingVariables h m t).w2 (workingVariables h m t).w3 = fv)
    (k : sha1K t = kt) :
    workingVariables h m (t + 1) =
      Spec.sha1Step fv kt ((messageSchedule m).getD t 0) (workingVariables h m t) := by
  subst f k
  exact sha1Rounds_take_succ _ t h (by rw [messageSchedule_length len]; exact lt)

/-- Compression adds the chaining value to the variables after the last round. -/
theorem compress_eq {m : List Byte} (len : m.length = 64) (h : Digest) :
    compress h m = addWords h (workingVariables h m 80) := by
  rw [compress, workingVariables, List.take_of_length_le (messageSchedule_length len).le]

/-! ### f and K on their four ranges (R110) -/

theorem sha1F_first {t : Nat} (le : t ≤ 19) (b c d : Word) : sha1F t b c d = (b &&& c) ||| (~~~b &&& d) :=
  if_pos le

theorem sha1F_second {t : Nat} (ge : 20 ≤ t) (le : t ≤ 39) (b c d : Word) : sha1F t b c d = b ^^^ c ^^^ d := by
  rw [sha1F, if_neg (by omega), if_pos le]

theorem sha1F_third {t : Nat} (ge : 40 ≤ t) (le : t ≤ 59) (b c d : Word) :
    sha1F t b c d = (b &&& c) ||| (b &&& d) ||| (c &&& d) := by
  rw [sha1F, if_neg (by omega), if_neg (by omega), if_pos le]

theorem sha1F_fourth {t : Nat} (ge : 60 ≤ t) (b c d : Word) : sha1F t b c d = b ^^^ c ^^^ d := by
  rw [sha1F, if_neg (by omega), if_neg (by omega), if_neg (by omega)]

theorem sha1K_first {t : Nat} (le : t ≤ 19) : sha1K t = 0x5A827999 := if_pos le

theorem sha1K_second {t : Nat} (ge : 20 ≤ t) (le : t ≤ 39) : sha1K t = 0x6ED9EBA1 := by
  rw [sha1K, if_neg (by omega), if_pos le]

theorem sha1K_third {t : Nat} (ge : 40 ≤ t) (le : t ≤ 59) : sha1K t = 0x8F1BBCDC := by
  rw [sha1K, if_neg (by omega), if_neg (by omega), if_pos le]

theorem sha1K_fourth {t : Nat} (ge : 60 ≤ t) : sha1K t = 0xCA62C1D6 := by
  rw [sha1K, if_neg (by omega), if_neg (by omega), if_neg (by omega)]

/-! ### Two blocks (R111) -/

/-- A padded message that a whole block begins and that ends with a second is hashed by two compressions. -/
theorem sha1_two_blocks {block rest : List Byte} (len : block.length = 64) (short : rest.length < 56) :
    sha1 (block ++ rest) = compress (compress sha1Iv block)
      (rest ++ [0x80] ++ List.replicate (55 - rest.length) 0 ++ be64 (BitVec.ofNat 64 (8 * (64 + rest.length)))) := by
  have zeros : padZeros (block ++ rest).length = 55 - rest.length := by
    rw [padZeros, List.length_append, len]
    omega
  have padded : sha1Padded (block ++ rest) = block ++ (rest ++ [0x80] ++ List.replicate (55 - rest.length) 0 ++
      be64 (BitVec.ofNat 64 (8 * (64 + rest.length)))) := by
    rw [sha1Padded, zeros, List.length_append, len]
    simp only [List.append_assoc]
  have second : (rest ++ [0x80] ++ List.replicate (55 - rest.length) 0 ++
      be64 (BitVec.ofNat 64 (8 * (64 + rest.length)))).length = 64 := by
    simp [be64]
    omega
  rw [sha1, padded, List.length_append, len, second]
  simp only [show (64 + 64) / 64 = 2 from rfl, compressBlocks]
  rw [List.take_left' len, List.drop_left' len, List.take_of_length_le second.le]

end Sys2Proof.Machine

namespace Sys2Proof.Proofs

open Sys2Proof.Machine Sys2Proof.Spec

/-- Settles O53: the schedule is the model's, and the working variables are those before each round of it. -/
theorem compressRunsEightyRounds : Obligations.CompressRunsEightyRounds := by
  unfold Obligations.CompressRunsEightyRounds
  refine ⟨rfl, fun h m len => ⟨fun t => (messageSchedule m).getD t 0, workingVariables h m, ?_, ?_, rfl, ?_, ?_,
    ?_, ?_, compress_eq len h⟩⟩
  · exact fun t le => messageSchedule_getD_block len le
  · exact fun t ge le => messageSchedule_getD_recurrence len ge le
  · exact fun t le => workingVariables_succ len h (by omega) (sha1F_first le _ _ _) (sha1K_first le)
  · exact fun t ge le => workingVariables_succ len h (by omega) (sha1F_second ge le _ _ _) (sha1K_second ge le)
  · exact fun t ge le => workingVariables_succ len h (by omega) (sha1F_third ge le _ _ _) (sha1K_third ge le)
  · exact fun t ge le => workingVariables_succ len h (by omega) (sha1F_fourth ge _ _ _) (sha1K_fourth ge)

/-- Settles O39: 8 and 20 bytes after the block leave 47 and 35 zeros, and 0x240 and 0x2A0 bits in all. -/
theorem eachHashIsTwoBlocks : Obligations.EachHashIsTwoBlocks := by
  unfold Obligations.EachHashIsTwoBlocks
  intro block msg inner block_len msg_len inner_len
  have bits_msg : be64 (BitVec.ofNat 64 (8 * (64 + 8))) = [0, 0, 0, 0, 0, 0, 0x02, 0x40] := by decide
  have bits_inner : be64 (BitVec.ofNat 64 (8 * (64 + 20))) = [0, 0, 0, 0, 0, 0, 0x02, 0xA0] := by decide
  constructor
  · rw [sha1_two_blocks block_len (by omega), msg_len, bits_msg]
  · rw [sha1_two_blocks block_len (by omega), inner_len, bits_inner]

end Sys2Proof.Proofs
end

section
/-! PROOFS for 42_otp_digest.md, the commands: the key checks, what HMAC and OTPGEN commit and what they
depend on, and truncation. -/

namespace Sys2Proof.Machine

open Sys2Proof.Spec

/-! ### The key checks (R112) -/

/-- STATE is the low three bits of B32STAT (10_state.md R26). -/
theorem b32statWord_and_seven (b : B32Stat) : b32statWord b &&& 7 = b.state.toBits.setWidth 32 := by
  have number := b32statWord_toNat b
  have state := b.state.toBits.isLt
  apply BitVec.eq_of_toNat_eq
  rw [BitVec.toNat_and, BitVec.toNat_setWidth_of_le (by decide), show (7 : Word).toNat = 2 ^ 3 - 1 from rfl,
    Nat.and_two_pow_sub_one_eq_mod]
  omega

/-- The first check fails exactly when STATE is not IDLE or DONE. -/
theorem keyState_bad (s : State) :
    (s.b32stat.state != .idle && s.b32stat.state != .done) = true ↔ ¬ keyStateOk s := by
  simp [keyStateOk]

/-- The second check fails exactly when KEYLEN is not 1 to 64. -/
theorem keyLen_bad (s : State) :
    (s.keylen == 0 || Config.keyMax < s.keylen.toNat) = true ↔ ¬ keyLenOk s := by
  have zero : s.keylen = 0 ↔ s.keylen.toNat = 0 := by bv_omega
  rw [Bool.or_eq_true, beq_iff_eq, zero, decide_eq_true_iff, show Config.keyMax = 64 from rfl, keyLenOk]
  omega

/-- A usable key passes the key checks. -/
theorem keycheck_usable {s : State} (state : keyStateOk s) (length : keyLenOk s) : keycheck s = none := by
  simp only [keycheck, failIf, keyState_bad, keyLen_bad, state, length]
  rfl

theorem keycheck_keystate {s : State} (state : ¬ keyStateOk s) :
    keycheck s = some ⟨.keystate, readReg .b32stat s &&& 7⟩ := by
  rw [readReg, b32statWord_and_seven, keycheck, failIf, if_pos ((keyState_bad s).mpr state), firstError_some]

theorem keycheck_keylen {s : State} (state : keyStateOk s) (length : ¬ keyLenOk s) :
    keycheck s = some ⟨.keylen, readReg .keylen s⟩ := by
  rw [readReg, keycheck, failIf, if_neg (mt (keyState_bad s).mp (not_not_intro state)), failIf,
    if_pos ((keyLen_bad s).mpr length), firstError_none, firstError_some]

/-- A keyed command refuses an unusable key with the error of R112, and writes nothing but the error. -/
theorem keyed_refuses (s : State) (ok : Result) :
    (¬ keyStateOk s → checked (keycheck s) s ok = .next (erred .keystate (readReg .b32stat s &&& 7) s)) ∧
    (keyStateOk s → ¬ keyLenOk s → checked (keycheck s) s ok = .next (erred .keylen (readReg .keylen s) s)) := by
  constructor
  · intro state
    rw [keycheck_keystate state]
    rfl
  · intro state length
    rw [keycheck_keylen state length]
    rfl

/-- With a usable key HMAC commits the digest of CTR (R117). -/
theorem exec_hmac_of_keycheck {s : State} (key : keycheck s = none) :
    exec .hmac s = .next { s with digest := digestOf s s.ctr } := by
  simp [exec, execHmac, key]

theorem keyLenOk_of_sameKey {s s' : State} (same : sameKey s s') (length : keyLenOk s) : keyLenOk s' := by
  obtain ⟨-, keylen, -⟩ := same
  rwa [keyLenOk, ← keylen]

/-- Of two states with the same key, both pass the key checks if one has a usable key. -/
theorem keycheck_usable_of_sameKey {s s' : State} (same : sameKey s s') (state : keyStateOk s)
    (length : keyLenOk s) : keycheck s' = none := by
  have ⟨stat, _⟩ := same
  refine keycheck_usable ?_ (keyLenOk_of_sameKey same length)
  rwa [keyStateOk, ← stat]

/-! ### K0 and the message (R113, R114) -/

/-- The key block is its 64 bytes of R113: the key below KEYLEN, zeros from there on. -/
theorem keyBlock_eq_ofFn {s : State} (length : keyLenOk s) :
    keyBlock s.key s.keylen.toNat = List.ofFn (keyBlockByte s) := by
  obtain ⟨-, le⟩ := length
  apply List.ext_getElem
  · simp [keyBlock, Config.keyMax]
    omega
  · intro i _ hi
    have lt : i < 64 := by simpa using hi
    rw [List.getElem_ofFn, keyBlockByte]
    split
    next below => simp [keyBlock, below, lt]
    next past => simp [keyBlock, List.getElem_append, past, le]

/-- K0 with a pad byte XORed into each byte (R115). -/
theorem xorPad_keyBlock {s : State} (length : keyLenOk s) (pad : Byte) :
    xorPad pad (keyBlock s.key s.keylen.toNat) = List.ofFn fun i => keyBlockByte s i ^^^ pad := by
  rw [keyBlock_eq_ofFn length, xorPad, List.map_ofFn]
  rfl

/-- The digest of a counter, written out over the bytes of K0 (R115). -/
theorem digestOf_eq {s : State} (length : keyLenOk s) (c : DWord) :
    digestOf s c = sha1 ((List.ofFn fun i => keyBlockByte s i ^^^ 0x5C) ++
      (sha1 ((List.ofFn fun i => keyBlockByte s i ^^^ 0x36) ++ counterMessage c)).bytes) := by
  rw [digestOf, hmacSha1, xorPad_keyBlock length, xorPad_keyBlock length]
  rfl

/-- K0 holds no key byte at or past KEYLEN. -/
theorem keyBlockByte_of_sameKey {s s' : State} (same : sameKey s s') : keyBlockByte s = keyBlockByte s' := by
  obtain ⟨-, keylen, bytes⟩ := same
  funext i
  unfold keyBlockByte
  rw [← keylen]
  split
  next below => exact bytes i below
  next => rfl

/-- The digest of a counter depends on the key below KEYLEN alone. -/
theorem digestOf_of_sameKey {s s' : State} (same : sameKey s s') (length : keyLenOk s) (c : DWord) :
    digestOf s c = digestOf s' c := by
  rw [digestOf_eq length, digestOf_eq (keyLenOk_of_sameKey same length), keyBlockByte_of_sameKey same]

/-! ### The counter (R116) -/

theorem counterOf_toNat (time : DWord) : (counterOf time).toNat = time.toNat / 30 :=
  divu64_quotient_toNat time _

/-! ### Truncation (R118) -/

theorem trunc_off_toNat (d : Digest) : (trunc d).off.toNat = (d.byte 19).toNat % 16 := by
  simp [trunc]

/-- The number of the window (R118): its first byte without the top bit, then the other three. -/
theorem trunc_number_toNat (d : Digest) :
    (trunc d).number.toNat =
      (d.byte (trunc d).off.toNat).toNat % 128 * 2 ^ 24 + (d.byte ((trunc d).off.toNat + 1)).toNat * 2 ^ 16 +
        (d.byte ((trunc d).off.toNat + 2)).toNat * 2 ^ 8 + (d.byte ((trunc d).off.toNat + 3)).toNat := by
  have masked (b : Byte) : (b &&& 0x7F).toNat = b.toNat % 128 :=
    Nat.and_two_pow_sub_one_eq_mod b.toNat 7
  rw [← masked, ← packWord_toNat, trunc, BitVec.toNat_setWidth, Nat.mod_eq_of_lt (packWord_masked_lt _ _ _ _)]

end Sys2Proof.Machine

namespace Sys2Proof.Proofs

open Sys2Proof.Machine Sys2Proof.Spec

/-- Settles O37, by the divider's quotient. -/
theorem ctrgenDividesByThirty : Obligations.CtrgenDividesByThirty := by
  unfold Obligations.CtrgenDividesByThirty
  exact ⟨by decide, fun s => ⟨_, rfl, rfl, counterOf_toNat s.time⟩⟩

/-- Settles O38: the key checks refuse in R112's order, and past them the digest is that of K0's 64 bytes. -/
theorem hmacWritesTheDigest : Obligations.HmacWritesTheDigest := by
  unfold Obligations.HmacWritesTheDigest
  refine ⟨by decide, fun s => ⟨fun state length => ?_, keyed_refuses s _⟩⟩
  exact ⟨_, exec_hmac_of_keycheck (keycheck_usable state length), rfl, digestOf_eq length s.ctr⟩

/-- Settles O40: both states pass the key checks, and K0 is the same. -/
theorem hmacIgnoresBytesPastKeylen : Obligations.HmacIgnoresBytesPastKeylen := by
  unfold Obligations.HmacIgnoresBytesPastKeylen
  intro s s' t t' same state length ctr run run'
  obtain rfl := Host.Outcome.next.inj
    ((exec_hmac_of_keycheck (keycheck_usable state length)).symm.trans run)
  obtain rfl := Host.Outcome.next.inj
    ((exec_hmac_of_keycheck (keycheck_usable_of_sameKey same state length)).symm.trans run')
  exact (digestOf_of_sameKey same length s.ctr).trans (congrArg (digestOf s') ctr)

/-- Settles O41: the window's bytes are bytes of the digest string, since it ends at byte 18 or before. -/
theorem truncTakesTheWindow : Obligations.TruncTakesTheWindow := by
  unfold Obligations.TruncTakesTheWindow
  refine ⟨by decide, fun s => ⟨_, rfl, rfl, ?_⟩⟩
  have byte (j : Nat) (lt : j < 20) : s.digest.byte j = s.digest.bytes.getD j 0 :=
    (digestBytesAreBigEndian s.digest ⟨j, lt⟩).2
  have off := (trunc s.digest).off.isLt
  simp only [State.withTruncated_offset, State.withTruncated_bincode, State.withTruncated_otp]
  refine ⟨?_, by omega, ?_, trunc_otp_toNat _⟩
  · rw [trunc_off_toNat, byte 19 (by decide)]
  · rw [trunc_number_toNat, byte _ (by omega), byte _ (by omega), byte _ (by omega), byte _ (by omega)]

/-- Settles O43: CTRGEN leaves the key as it is, so HMAC makes the one key check that OTPGEN makes. -/
theorem otpgenIsTheThreeCommands : Obligations.OtpgenIsTheThreeCommands := by
  unfold Obligations.OtpgenIsTheThreeCommands
  refine ⟨by decide, fun s => ⟨fun state length => ?_, keyed_refuses s _⟩⟩
  have key := keycheck_usable state length
  exact ⟨{ s with ctr := counterOf s.time }, _, _, rfl, exec_hmac_of_keycheck key, rfl,
    exec_otpgen_of_keycheck key⟩

/-- Settles O44: the step gives the counter, the key and the counter give the digest, and the digest the rest. -/
theorem otpDependsOnKeyAndStepOnly : Obligations.OtpDependsOnKeyAndStepOnly := by
  unfold Obligations.OtpDependsOnKeyAndStepOnly
  intro s s' t t' same state length step run run'
  obtain rfl := Host.Outcome.next.inj
    ((exec_otpgen_of_keycheck (keycheck_usable state length)).symm.trans run)
  obtain rfl := Host.Outcome.next.inj
    ((exec_otpgen_of_keycheck (keycheck_usable_of_sameKey same state length)).symm.trans run')
  have ctr : counterOf s.time = counterOf s'.time :=
    BitVec.eq_of_toNat_eq (by rw [counterOf_toNat, counterOf_toNat, step])
  have digest : digestOf s (counterOf s.time) = digestOf s' (counterOf s'.time) :=
    ctr ▸ digestOf_of_sameKey same length _
  simp only [State.withFreshOtp_ctr, State.withFreshOtp_digest, State.withFreshOtp_offset,
    State.withFreshOtp_bincode, State.withFreshOtp_otp]
  rw [digest]
  exact ⟨ctr, rfl, rfl, rfl, rfl⟩

end Sys2Proof.Proofs
end

section
/-! PROOFS for 43_paycode_divider.md: the divider and its restoring algorithm, the checks of the paycode
commands in order, and what PAYENC, PAYREC and PAYCHK commit past them. -/

namespace Sys2Proof.Machine

open Sys2Proof.Spec

/-! ### The restoring algorithm (R125) -/

/-- The bits of a number from bit `n` up are those from bit `n + 1` up and bit `n`. -/
theorem div_two_pow_eq_next_bit (a : DWord) (n : Nat) :
    a.toNat / 2 ^ n = 2 * (a.toNat / 2 ^ (n + 1)) + (a.getLsbD n).toNat := by
  rw [BitVec.getLsbD, Nat.toNat_testBit, Nat.pow_succ, ← Nat.div_div_eq_div_mul]
  omega

/-- One step that subtracts: the divisor goes into the partial remainder, so the quotient bit is 1. -/
theorem div_mod_of_restoring_subtracts {b m bit : Nat} (bit_le : bit ≤ 1) (pos : 0 < b)
    (le : b ≤ 2 * (m % b) + bit) :
    (2 * m + bit) / b = 2 * (m / b) + 1 ∧ (2 * m + bit) % b = 2 * (m % b) + bit - b := by
  have lt := Nat.mod_lt m pos
  have whole := Nat.div_add_mod m b
  rw [Nat.div_mod_unique pos]
  exact ⟨by lia, by omega⟩

/-- One step that restores: the divisor does not go into the partial remainder, so the quotient bit is 0. -/
theorem div_mod_of_restoring_restores {b m bit : Nat} (pos : 0 < b) (lt : 2 * (m % b) + bit < b) :
    (2 * m + bit) / b = 2 * (m / b) ∧ (2 * m + bit) % b = 2 * (m % b) + bit := by
  have whole := Nat.div_add_mod m b
  rw [Nat.div_mod_unique pos]
  exact ⟨by lia, lt⟩

/-- The invariant of the restoring algorithm: with quotient and remainder of the bits from `n` up, the steps
for the low `n` bits give quotient and remainder of the whole dividend. -/
theorem restoringSteps_of_high_bits (a : DWord) {b : Nat} (pos : 0 < b) (n : Nat) :
    restoringSteps a b n (a.toNat / 2 ^ n / b, a.toNat / 2 ^ n % b) = (a.toNat / b, a.toNat % b) := by
  induction n with
  | zero => simp [restoringSteps]
  | succ n ih =>
    rw [div_two_pow_eq_next_bit a n] at ih
    simp only [restoringSteps]
    split
    next le =>
      obtain ⟨quotient, remainder⟩ := div_mod_of_restoring_subtracts (Bool.toNat_le _) pos le
      rwa [quotient, remainder] at ih
    next gt =>
      obtain ⟨quotient, remainder⟩ := div_mod_of_restoring_restores pos (Nat.lt_of_not_le gt)
      rwa [quotient, remainder] at ih

/-- From an empty partial remainder the 64 steps divide. -/
theorem restoringDivide_eq_divu64 (a : DWord) {b : DWord} (nonzero : b ≠ 0) :
    restoringDivide a b = divu64 a b := by
  have pos : 0 < b.toNat := by bv_omega
  have steps := restoringSteps_of_high_bits a pos 64
  rw [Nat.div_eq_of_lt a.isLt, Nat.zero_div, Nat.zero_mod] at steps
  rw [restoringDivide, steps, divu64]

/-- A check for zero passes on anything else. -/
theorem failIf_zero_of_ne {n : Nat} {v : BitVec n} (nonzero : v ≠ 0) (e : CmdError) : failIf (v == 0) e = none :=
  failIf_eq_none.mpr (beq_eq_false_iff_ne.mpr nonzero)

/-- DIV past its one check (R126). -/
theorem exec_div_of_nonzero {s : State} (nonzero : s.b ≠ 0) : exec .div s =
    .next { s with q := (divu64 s.a s.b).quotient, r := (divu64 s.a s.b).remainder } := by
  rw [exec, execDiv, failIf_zero_of_ne nonzero, checked_none]

/-! ### The checks in order (R126, R128, R131) -/

theorem encodeCheck_x_zero {s : State} (x : s.x = 0) : encodeCheck s = some divByZero := by
  simp [encodeCheck, x]

theorem encodeCheck_x_wide {s : State} (x : 9999 < s.x.toNat) : encodeCheck s = some (rangeError 1) := by
  have nonzero : s.x ≠ 0 := by bv_omega
  rw [encodeCheck, failIf_zero_of_ne nonzero]
  simp [Config.xMax, x]

theorem encodeCheck_y_wide {s : State} (nonzero : s.x ≠ 0) (x : s.x.toNat ≤ 9999) (y : 99999999 < encodedY s) :
    encodeCheck s = some (rangeError 2) := by
  rw [encodeCheck, failIf_zero_of_ne nonzero]
  simp [Config.xMax, Config.yMax, Nat.not_lt.mpr x, y]

theorem fieldcheck_x_wide {s : State} (x : 9999 < s.x.toNat) : fieldcheck s = some (rangeError 1) := by
  simp [fieldcheck, Config.xMax, x]

theorem fieldcheck_y_wide {s : State} (x : s.x.toNat ≤ 9999) (y : 99999999 < s.y.toNat) :
    fieldcheck s = some (rangeError 2) := by
  simp [fieldcheck, Config.xMax, Config.yMax, Nat.not_lt.mpr x, y]

theorem fieldcheck_z_wide {s : State} (x : s.x.toNat ≤ 9999) (y : s.y.toNat ≤ 99999999) (z : 9999 < s.z.toNat) :
    fieldcheck s = some (rangeError 3) := by
  simp [fieldcheck, Config.xMax, Config.yMax, Config.zMax, Nat.not_lt.mpr x, Nat.not_lt.mpr y, z]

/-- A command that checks the fields first refuses a field out of range with its E_RANGE reason, and writes
nothing but the error. -/
theorem fielded_refuses (s : State) (rest : List (Option CmdError)) (ok : Result) :
    (9999 < s.x.toNat → checked (firstError (fieldcheck s :: rest)) s ok = .next (erred .range 1 s)) ∧
    (s.x.toNat ≤ 9999 → 99999999 < s.y.toNat →
      checked (firstError (fieldcheck s :: rest)) s ok = .next (erred .range 2 s)) ∧
    (s.x.toNat ≤ 9999 → s.y.toNat ≤ 99999999 → 9999 < s.z.toNat →
      checked (firstError (fieldcheck s :: rest)) s ok = .next (erred .range 3 s)) := by
  refine ⟨fun x => ?_, fun x y => ?_, fun x y z => ?_⟩
  · rw [fieldcheck_x_wide x]
    rfl
  · rw [fieldcheck_y_wide x y]
    rfl
  · rw [fieldcheck_z_wide x y z]
    rfl

/-- Fields in range hand a command that checks them first on to its next check. -/
theorem firstError_of_fieldsFit {s : State} (fields : fieldsFit s) (check : Option CmdError) :
    firstError [fieldcheck s, check] = check := by
  rw [fieldcheck_eq_none.mpr fields, firstError_none]
  cases check <;> rfl

/-! ### The identifier recovered (R130, R132) -/

/-- `Y - FACTOR * X` is at most Y. -/
theorem recoveredT_le (s : State) : recoveredT s ≤ s.y.toNat :=
  sub_le_self _ (by positivity)

/-- With the fields in range and t not negative, `X * t + Z` fits ORIGUID. -/
theorem recoveredUid_toNat {s : State} (fields : fieldsFit s) (nonneg : 0 ≤ recoveredT s) :
    ((recoveredUid s).toNat : Int) = s.x.toNat * recoveredT s + s.z.toNat := by
  obtain ⟨x, y, z⟩ := fields
  have t_le := recoveredT_le s
  have product : s.x.toNat * (recoveredT s).toNat ≤ 9999 * 99999999 := Nat.mul_le_mul x (by omega)
  rw [recoveredUid, BitVec.toNat_ofNat, Nat.mod_eq_of_lt (by omega)]
  simp [nonneg]

/-- PAYREC past its checks. -/
theorem exec_payrec_of_checks {s : State} (fields : fieldsFit s) (nonneg : 0 ≤ recoveredT s) :
    exec .payrec s = .next { s with origuid := recoveredUid s } := by
  simp [exec, execPayrec, firstError_of_fieldsFit fields, failIf, Int.not_lt.mpr nonneg]

/-! ### The OTP within a step (42_otp_digest.md R120, R121) -/

/-- The counter is the same at every time of a step. -/
theorem counterOf_of_same_step {time now : DWord} (step : now.toNat / 30 = time.toNat / 30) :
    counterOf now = counterOf time :=
  BitVec.eq_of_toNat_eq (by rw [counterOf_toNat, counterOf_toNat, step])

/-- The fresh OTP is the same for the same key buffer and KEYLEN at every time of a step. -/
theorem withFreshOtp_otp_of_same_step {s u : State} (key : u.key = s.key) (keylen : u.keylen = s.keylen)
    (step : u.time.toNat / 30 = s.time.toNat / 30) : u.withFreshOtp.otp = s.withFreshOtp.otp := by
  simp only [State.withFreshOtp_otp, digestOf, key, keylen, counterOf_of_same_step step]

end Sys2Proof.Machine

namespace Sys2Proof.Proofs

open Sys2Proof.Machine Sys2Proof.Spec

/-- Settles O45: past its one check DIV commits the divider's result. -/
theorem divGivesQuotientAndRemainder : Obligations.DivGivesQuotientAndRemainder := by
  unfold Obligations.DivGivesQuotientAndRemainder
  refine ⟨by decide, fun s => ⟨fun nonzero => ?_, fun zero => ?_⟩⟩
  · refine ⟨_, exec_div_of_nonzero nonzero, rfl, ?_, ?_⟩
    · rw [divu64_quotient_toNat, divu64_remainder_toNat, Nat.div_add_mod']
    · rw [divu64_remainder_toNat]
      exact Nat.mod_lt _ (by bv_omega)
  · rw [exec, execDiv, zero]
    rfl

/-- Settles O46, by the invariant of the restoring steps. -/
theorem restoringAlgorithmIsTheDivider : Obligations.RestoringAlgorithmIsTheDivider := by
  unfold Obligations.RestoringAlgorithmIsTheDivider
  intro a b nonzero
  exact ⟨restoringDivide_eq_divu64 a nonzero, divu64_quotient_toNat a b, divu64_remainder_toNat a b⟩

/-- Settles O47: the checks fail in R128's order, and past them y and z fit their registers. -/
theorem payencEncodesOrRefuses : Obligations.PayencEncodesOrRefuses := by
  unfold Obligations.PayencEncodesOrRefuses
  refine ⟨by decide, fun s => ⟨fun zero => ?_, fun wide => ?_, fun pos x y => ?_, fun pos x y => ?_⟩⟩
  · rw [exec, execPayenc, encodeCheck_x_zero zero]
    rfl
  · rw [exec, execPayenc, encodeCheck_x_wide wide]
    rfl
  · rw [← encodedY_eq] at y
    rw [exec, execPayenc, encodeCheck_y_wide (by bv_omega) x y]
    rfl
  · rw [← encodedY_eq] at y ⊢
    have code : encodeCheck s = none := encodeCheck_eq_none.mpr ⟨by bv_omega, x, y⟩
    have run : exec .payenc s = .next s.withEncoded := by
      rw [exec, execPayenc, code]
      rfl
    exact ⟨_, run, rfl, withEncoded_y_toNat code, (withEncoded_z_toNat code).1⟩

/-- Settles O48: the fields are refused in R131's order, then a negative t, and past the checks the
identifier fits ORIGUID. -/
theorem payrecRecoversOrRefuses : Obligations.PayrecRecoversOrRefuses := by
  unfold Obligations.PayrecRecoversOrRefuses
  refine ⟨by decide, fun s => ⟨(fielded_refuses s _ _).1, (fielded_refuses s _ _).2.1, (fielded_refuses s _ _).2.2,
    fun fields negative => ?_, fun fields nonneg => ?_⟩⟩
  · have failed : failIf (recoveredT s < 0) (rangeError 4) = some (rangeError 4) :=
      failIf_eq_some.mpr ⟨decide_eq_true negative, rfl⟩
    rw [exec, execPayrec, firstError_of_fieldsFit fields, failed]
    rfl
  · exact ⟨_, exec_payrec_of_checks fields nonneg, rfl, recoveredUid_toNat fields nonneg⟩

/-- Settles O49: what PAYENC commits passes PAYREC's checks, and gives UID back. -/
theorem paycodeRoundTrip : Obligations.PaycodeRoundTrip := by
  unfold Obligations.PaycodeRoundTrip
  intro s t run ok
  obtain ⟨code, rfl⟩ := exec_payenc_noError run ok
  have nonneg : 0 ≤ recoveredT s.withEncoded :=
    (recoveredT_withEncoded code).symm ▸ Int.natCast_nonneg _
  rw [exec_payrec_of_checks (fieldcheck_eq_none.mp (fieldcheck_withEncoded code)) nonneg,
    recoveredUid_withEncoded code]

/-- Settles O50: the fields are refused in R131's order, then the key in R112's, and past the checks the sign
of t decides what is recovered. -/
theorem paychkValidates : Obligations.PaychkValidates := by
  unfold Obligations.PaychkValidates
  refine ⟨by decide, fun s => ⟨(fielded_refuses s _ _).1, (fielded_refuses s _ _).2.1, (fielded_refuses s _ _).2.2,
    fun fields => ?_, fun fields => ?_, fun fields state length => ?_⟩⟩
  · rw [exec, execPaychk, firstError_of_fieldsFit fields]
    exact (keyed_refuses s _).1
  · rw [exec, execPaychk, firstError_of_fieldsFit fields]
    exact (keyed_refuses s _).2
  · have key := keycheck_usable state length
    refine ⟨_, _, exec_otpgen_of_keycheck key, exec_paychk_of_checks (fieldcheck_eq_none.mpr fields) key, rfl,
      fun (negative : recoveredT s < 0) => ?_, fun (nonneg : 0 ≤ recoveredT s) => ?_, by simp [checkInfo],
      by simp⟩
    · simp [checkInfo, checkedUid, negative]
    · refine ⟨?_, by simp [checkInfo, nonneg], by simp [checkInfo, nonneg]⟩
      rw [checkedUid_of_nonneg nonneg]
      exact recoveredUid_toNat fields nonneg

/-- Settles O51: PAYENC's fields give UID back, and within the step the fresh OTP is the one that X holds. -/
theorem freshPaycodeValidates : Obligations.FreshPaycodeValidates := by
  unfold Obligations.FreshPaycodeValidates
  intro s g e now hg gok he eok step
  obtain ⟨l, fresh⟩ := exec_answers .otpgen { e with time := now }
  obtain ⟨key, rfl⟩ := exec_otpgen_noError hg gok
  obtain ⟨code, rfl⟩ := exec_payenc_noError he eok
  obtain ⟨t, run, noError, valid, info, origuid⟩ := exec_paychk_withEncoded code key fresh
  have same : l.otp = s.withFreshOtp.otp := by
    obtain rfl := Host.Outcome.next.inj (fresh.symm.trans (exec_otpgen_of_keycheck key))
    exact withFreshOtp_otp_of_same_step rfl rfl step
  have otpOk : (l.otp.toNat == (s.withFreshOtp.otp.setWidth 32).toNat) = true := by
    rw [same, BitVec.toNat_setWidth_of_le (by decide), beq_self_eq_true]
  exact ⟨t, run, noError.trans gok, valid.trans otpOk,
    info.trans (congrArg (ChkInfo.mk true · false) otpOk), origuid⟩

end Sys2Proof.Proofs
end

section
/-! PROOFS for 60_exceptions.md: what an error completion commits, and when the interrupt output is high. -/

namespace Sys2Proof.Machine

/-! ### Error completions (60_exceptions.md R143) -/

/-- A commit that records an error is a failed check's, or a refusal of the base-32 decoder with STATE set to ERR. -/
theorem exec_error_cases {i : Instr} {s t : State} (h : exec i s = .next t) (clear : s.errcode = .noError)
    (isError : t.errcode ≠ .noError) :
    ∃ e, (checkOf s i = some e ∧ t = s.withError e) ∨
      ((∃ c, i = .b32ch c) ∧ t = s.counted.decoderFailed.withError e) ∨
      (i = .b32fin ∧ t = s.decoderFailed.withError e) := by
  cases exec_commits h with
  | checkFailed i e failed => exact ⟨e, .inl ⟨failed, rfl⟩⟩
  | charRefused c e => exact ⟨e, .inr (.inl ⟨⟨c, rfl⟩, rfl⟩)⟩
  | textRefused e => exact ⟨e, .inr (.inr ⟨rfl, rfl⟩)⟩
  | symbol c v u _ _ packed => obtain ⟨_, _, _, rfl⟩ := pack_frame packed; exact absurd clear isError
  | _ => exact absurd clear isError

/-! ### The interrupt output (R148) -/

/-- A commit leaves IE alone, an illegal word's too. -/
theorem execWord_ie {w : Word} {s t : State} (run : execWord w s = .next t) : t.ie = s.ie := by
  unfold execWord at run
  split at run
  next i _ =>
    obtain ⟨⟨-, -, -, -, -, -, ie, -⟩, -⟩ := Proofs.everyCommandStaysInItsWriteSet i s t run
    exact ie
  next =>
    obtain rfl := Host.Outcome.next.inj run
    rfl

/-- A completion leaves DONE 1 and IE as it was. -/
theorem coreTurn_irq {s t : State} (flying : s.inflight = true) (h : coreTurn s = .next t) :
    irq t = s.ie ∧ t.done = true := by
  obtain ⟨idle, -⟩ | ⟨-, w, u, -, run, rfl⟩ := coreTurn_cases h
  · exact absurd (flying.symm.trans idle) (by decide)
  · exact ⟨by simp [irq, execWord_ie run], State.finish_done u⟩

end Sys2Proof.Machine

namespace Sys2Proof.Proofs

open Sys2Proof.Machine

/-- Settles O24: of the ways a command can end only three record an error, and each writes the error's effects. -/
theorem errorWritesOnlyItsRecord : Obligations.ErrorWritesOnlyItsRecord := by
  unfold Obligations.ErrorWritesOnlyItsRecord
  intro i s t clear h isError
  refine ⟨by simpa [State.errFlag] using isError, ?_⟩
  obtain ⟨e, ⟨failed, rfl⟩ | ⟨⟨c, rfl⟩, rfl⟩ | ⟨rfl, rfl⟩⟩ := exec_error_cases h clear isError
  · refine ⟨?_, ?_, fun _ _ => rfl⟩
    · rintro ⟨c, rfl⟩
      cases failed
    · rintro rfl
      cases failed
  · exact ⟨fun _ => rfl, nofun, fun notCh => absurd rfl (notCh c)⟩
  · exact ⟨nofun, fun _ => rfl, fun _ notFin => absurd rfl notFin⟩

/-- Settles O26: a completion sets DONE and keeps IE, and each of the other steps clears DONE or IE. -/
theorem irqFollowsCompletion : Obligations.IrqFollowsCompletion := by
  unfold Obligations.IrqFollowsCompletion
  refine ⟨?completion, ?issue, ?statusWrite, ?ctrlWrite, ?reset, fun _ => rfl⟩
  case completion =>
    intro s t rest flying h run
    rw [step_cons h] at run
    exact coreTurn_irq (s := { s with schedule := rest }) flying run
  case issue =>
    intro s t w rest idle h run
    obtain ⟨-, low⟩ := (issueLatchesTheWord s w rest h).1 idle
    exact low t run
  case statusWrite =>
    intro s t v rest clears h run
    have written := (controlWritesAlwaysAct s v rest).2 h
    obtain rfl := Host.Outcome.next.inj (written.symm.trans run)
    simp [irq, clears]
  case ctrlWrite =>
    intro s t rest h run
    have written := (controlWritesAlwaysAct s 0 rest).1 rfl h
    obtain rfl := Host.Outcome.next.inj (written.symm.trans run)
    simp [irq]
  case reset =>
    intro s t rest h run
    rw [step_cons h] at run
    obtain rfl := Host.Outcome.next.inj run
    rfl

end Sys2Proof.Proofs
end

section
/-! PROOFS for 70_reset_and_hazards.md: what a reset leaves behind. -/

namespace Sys2Proof.Machine

/-! ### Reset (70_reset_and_hazards.md R160, R161) -/

/-- A key buffer of zero bytes shows zero words (10_state.md R38). -/
theorem keyWord_replicate_zero (k : Fin 16) : keyWord (Vector.replicate 64 0) k = 0 := by
  simp [keyWord, packWord]

/-- The upper half of a zero pair is zero (R39). -/
theorem hi_zero : hi 0 = 0 := by decide

/-- After a reset every register of the map reads its value in R18's reset column: the words of several fields
are zero because each field is, the registers with one field show it. -/
theorem readReg_resetState (r : Reg) (s : State) : readReg r (resetState s) = Spec.resetWord r := by
  cases r with
  | ctrl => exact ctrlWord_eq _
  | status => exact statusWord_eq _
  | b32stat => exact b32statWord_eq _
  | chkinfo => exact chkinfoWord_eq _
  | timeHi | ctrHi | origuidHi | aHi | bHi | qHi | rHi => exact hi_zero
  | keybuf k => exact keyWord_replicate_zero k
  | _ => rfl

/-- The reset has the whole effect of R161. -/
theorem resetState_isResetState (s : State) : Spec.isResetState (resetState s) := by
  have keyCleared : ∀ i : Fin 64, (resetState s).key[i] = 0 := fun _ => Vector.getElem_replicate _
  exact ⟨fun r => readReg_resetState r s, keyCleared, rfl, rfl, rfl⟩

/-- A write of CTRL with SRST set is a reset, whatever BUSY is (R160, 20_memory.md R53). -/
theorem hostAccess_write_srst {v : Word} (srst : v.getLsbD 1 = true) (s : State) :
    hostAccess (.write Reg.ctrl.byteOffset 4 v) s = .next (resetState s) := by
  rw [hostAccess_write, writeReg_ctrl, if_pos srst]

end Sys2Proof.Machine

namespace Sys2Proof.Proofs

open Sys2Proof.Machine

/-- Settles O4: the rst turn and the CTRL write with SRST come to the same reset, which keeps what is scheduled. -/
theorem resetGivesEveryResetValue : Obligations.ResetGivesEveryResetValue := by
  unfold Obligations.ResetGivesEveryResetValue
  refine fun s rest => ⟨fun pin => ?_, fun v srst write => ?_⟩
  · exact ⟨_, step_cons pin, resetState_isResetState _, rfl⟩
  · exact ⟨_, (step_cons write).trans (hostAccess_write_srst srst _), resetState_isResetState _, rfl⟩

end Sys2Proof.Proofs
end
